-- ==== Sys2Proof/Word.lean ====
section
/-! DEFINITION. The fixed widths of the machine: bytes, words, register numbers (10_state.md R20, R25, R40;
30_encoding.md R82). -/

namespace Sys2Proof

/-- One byte of memory (10_state.md R40). -/
abbrev Byte := BitVec 8

/-- A halfword (00_scope.md section 7). -/
abbrev Half := BitVec 16

/-- An XLEN = 32 bit value: an x register, the pc, an address, an instruction word (00_scope.md R4). -/
abbrev Word := BitVec 32

/-- A doubleword: the widest f register (10_state.md R33). -/
abbrev DWord := BitVec 64

/-- A register number, as a 5-bit instruction field holds it (30_encoding.md R82). -/
abbrev RegIdx := BitVec 5

/-- A CSR number (10_state.md R36). -/
abbrev CsrIdx := BitVec 12

/-- The five accrued floating-point flags, NV DZ OF UF NX from bit 4 down to bit 0 (10_state.md R35). -/
abbrev FpFlags := BitVec 5

end Sys2Proof
end

