-- ==== Sys2Proof/Syntax.lean ====
section
/-! DEFINITION. The syntax: one constructor per row of spec/opcode_table.json, in the table's order. A constructor's
fields are the operand fields of its format (30_encoding.md R81 to R92), none dropped, so that the instruction word can
be written back from it. `imm` is the field before sign extension; `off` is the byte offset of R86 and R88 with its bit
0, which must be 0 (WellFormed.lean); in the U format `imm` is inst[31:12]. -/

namespace Sys2Proof

/-- The 139 instructions of spec/opcode_table.json. -/
inductive Instr where
  -- 40_rv32i_integer.md: integer computational instructions
  | add (rd rs1 rs2 : RegIdx)
  | addi (rd rs1 : RegIdx) (imm : BitVec 12)
  | and (rd rs1 rs2 : RegIdx)
  | andi (rd rs1 : RegIdx) (imm : BitVec 12)
  | auipc (rd : RegIdx) (imm : BitVec 20)
  | lui (rd : RegIdx) (imm : BitVec 20)
  | or (rd rs1 rs2 : RegIdx)
  | ori (rd rs1 : RegIdx) (imm : BitVec 12)
  | sll (rd rs1 rs2 : RegIdx)
  | slli (rd rs1 : RegIdx) (shamt : BitVec 5)
  | slt (rd rs1 rs2 : RegIdx)
  | slti (rd rs1 : RegIdx) (imm : BitVec 12)
  | sltiu (rd rs1 : RegIdx) (imm : BitVec 12)
  | sltu (rd rs1 rs2 : RegIdx)
  | sra (rd rs1 rs2 : RegIdx)
  | srai (rd rs1 : RegIdx) (shamt : BitVec 5)
  | srl (rd rs1 rs2 : RegIdx)
  | srli (rd rs1 : RegIdx) (shamt : BitVec 5)
  | sub (rd rs1 rs2 : RegIdx)
  | xor (rd rs1 rs2 : RegIdx)
  | xori (rd rs1 : RegIdx) (imm : BitVec 12)
  -- 41_rv32i_control.md: control transfer
  | beq (rs1 rs2 : RegIdx) (off : BitVec 13)
  | bge (rs1 rs2 : RegIdx) (off : BitVec 13)
  | bgeu (rs1 rs2 : RegIdx) (off : BitVec 13)
  | blt (rs1 rs2 : RegIdx) (off : BitVec 13)
  | bltu (rs1 rs2 : RegIdx) (off : BitVec 13)
  | bne (rs1 rs2 : RegIdx) (off : BitVec 13)
  | jal (rd : RegIdx) (off : BitVec 21)
  | jalr (rd rs1 : RegIdx) (imm : BitVec 12)
  -- 42_rv32i_loadstore.md: loads and stores (a store's `rs2` holds the data)
  | lb (rd rs1 : RegIdx) (imm : BitVec 12)
  | lbu (rd rs1 : RegIdx) (imm : BitVec 12)
  | lh (rd rs1 : RegIdx) (imm : BitVec 12)
  | lhu (rd rs1 : RegIdx) (imm : BitVec 12)
  | lw (rd rs1 : RegIdx) (imm : BitVec 12)
  | sb (rs1 rs2 : RegIdx) (imm : BitVec 12)
  | sh (rs1 rs2 : RegIdx) (imm : BitVec 12)
  | sw (rs1 rs2 : RegIdx) (imm : BitVec 12)
  -- 43_rv32i_system.md: CSR, environment and fence instructions (the free bits of the two fences are kept as `rd`, `rs1`, `imm`)
  | csrrc (rd rs1 : RegIdx) (csr : CsrIdx)
  | csrrci (rd : RegIdx) (uimm : BitVec 5) (csr : CsrIdx)
  | csrrs (rd rs1 : RegIdx) (csr : CsrIdx)
  | csrrsi (rd : RegIdx) (uimm : BitVec 5) (csr : CsrIdx)
  | csrrw (rd rs1 : RegIdx) (csr : CsrIdx)
  | csrrwi (rd : RegIdx) (uimm : BitVec 5) (csr : CsrIdx)
  | ebreak
  | ecall
  | fence (rd rs1 : RegIdx) (imm : BitVec 12)
  | fenceI (rd rs1 : RegIdx) (imm : BitVec 12)
  -- 44_m_multiply.md: the M group
  | mul (rd rs1 rs2 : RegIdx)
  | mulh (rd rs1 rs2 : RegIdx)
  | mulhsu (rd rs1 rs2 : RegIdx)
  | mulhu (rd rs1 rs2 : RegIdx)
  | div (rd rs1 rs2 : RegIdx)
  | divu (rd rs1 rs2 : RegIdx)
  | rem (rd rs1 rs2 : RegIdx)
  | remu (rd rs1 rs2 : RegIdx)
  -- 45_fd_float.md: the F and D groups (`rm` is the rounding-mode field, inst[14:12])
  | flw (rd rs1 : RegIdx) (imm : BitVec 12)
  | fld (rd rs1 : RegIdx) (imm : BitVec 12)
  | fsw (rs1 rs2 : RegIdx) (imm : BitVec 12)
  | fsd (rs1 rs2 : RegIdx) (imm : BitVec 12)
  | faddS (rd rs1 rs2 : RegIdx) (rm : BitVec 3)
  | faddD (rd rs1 rs2 : RegIdx) (rm : BitVec 3)
  | fsubS (rd rs1 rs2 : RegIdx) (rm : BitVec 3)
  | fsubD (rd rs1 rs2 : RegIdx) (rm : BitVec 3)
  | fmulS (rd rs1 rs2 : RegIdx) (rm : BitVec 3)
  | fmulD (rd rs1 rs2 : RegIdx) (rm : BitVec 3)
  | fdivS (rd rs1 rs2 : RegIdx) (rm : BitVec 3)
  | fdivD (rd rs1 rs2 : RegIdx) (rm : BitVec 3)
  | fsqrtS (rd rs1 : RegIdx) (rm : BitVec 3)
  | fsqrtD (rd rs1 : RegIdx) (rm : BitVec 3)
  | fmaddS (rd rs1 rs2 rs3 : RegIdx) (rm : BitVec 3)
  | fmaddD (rd rs1 rs2 rs3 : RegIdx) (rm : BitVec 3)
  | fmsubS (rd rs1 rs2 rs3 : RegIdx) (rm : BitVec 3)
  | fmsubD (rd rs1 rs2 rs3 : RegIdx) (rm : BitVec 3)
  | fnmsubS (rd rs1 rs2 rs3 : RegIdx) (rm : BitVec 3)
  | fnmsubD (rd rs1 rs2 rs3 : RegIdx) (rm : BitVec 3)
  | fnmaddS (rd rs1 rs2 rs3 : RegIdx) (rm : BitVec 3)
  | fnmaddD (rd rs1 rs2 rs3 : RegIdx) (rm : BitVec 3)
  | fsgnjS (rd rs1 rs2 : RegIdx)
  | fsgnjD (rd rs1 rs2 : RegIdx)
  | fsgnjnS (rd rs1 rs2 : RegIdx)
  | fsgnjnD (rd rs1 rs2 : RegIdx)
  | fsgnjxS (rd rs1 rs2 : RegIdx)
  | fsgnjxD (rd rs1 rs2 : RegIdx)
  | fminS (rd rs1 rs2 : RegIdx)
  | fminD (rd rs1 rs2 : RegIdx)
  | fmaxS (rd rs1 rs2 : RegIdx)
  | fmaxD (rd rs1 rs2 : RegIdx)
  | feqS (rd rs1 rs2 : RegIdx)
  | feqD (rd rs1 rs2 : RegIdx)
  | fltS (rd rs1 rs2 : RegIdx)
  | fltD (rd rs1 rs2 : RegIdx)
  | fleS (rd rs1 rs2 : RegIdx)
  | fleD (rd rs1 rs2 : RegIdx)
  | fclassS (rd rs1 : RegIdx)
  | fclassD (rd rs1 : RegIdx)
  | fmvSX (rd rs1 : RegIdx)
  | fmvDX (rd rs1 : RegIdx)
  | fmvXS (rd rs1 : RegIdx)
  | fmvXD (rd rs1 : RegIdx)
  | fcvtDS (rd rs1 : RegIdx) (rm : BitVec 3)
  | fcvtSD (rd rs1 : RegIdx) (rm : BitVec 3)
  | fcvtSW (rd rs1 : RegIdx) (rm : BitVec 3)
  | fcvtDW (rd rs1 : RegIdx) (rm : BitVec 3)
  | fcvtSL (rd rs1 : RegIdx) (rm : BitVec 3)
  | fcvtDL (rd rs1 : RegIdx) (rm : BitVec 3)
  | fcvtSWu (rd rs1 : RegIdx) (rm : BitVec 3)
  | fcvtDWu (rd rs1 : RegIdx) (rm : BitVec 3)
  | fcvtSLu (rd rs1 : RegIdx) (rm : BitVec 3)
  | fcvtDLu (rd rs1 : RegIdx) (rm : BitVec 3)
  | fcvtWS (rd rs1 : RegIdx) (rm : BitVec 3)
  | fcvtWD (rd rs1 : RegIdx) (rm : BitVec 3)
  | fcvtLS (rd rs1 : RegIdx) (rm : BitVec 3)
  | fcvtLD (rd rs1 : RegIdx) (rm : BitVec 3)
  | fcvtWuS (rd rs1 : RegIdx) (rm : BitVec 3)
  | fcvtWuD (rd rs1 : RegIdx) (rm : BitVec 3)
  | fcvtLuS (rd rs1 : RegIdx) (rm : BitVec 3)
  | fcvtLuD (rd rs1 : RegIdx) (rm : BitVec 3)
  -- 46_a_atomic.md: the A group (`aq`, `rl` are inst[26], inst[25])
  | amoaddW (rd rs1 rs2 : RegIdx) (aq rl : BitVec 1)
  | amoaddD (rd rs1 rs2 : RegIdx) (aq rl : BitVec 1)
  | amoandW (rd rs1 rs2 : RegIdx) (aq rl : BitVec 1)
  | amoandD (rd rs1 rs2 : RegIdx) (aq rl : BitVec 1)
  | amomaxW (rd rs1 rs2 : RegIdx) (aq rl : BitVec 1)
  | amomaxD (rd rs1 rs2 : RegIdx) (aq rl : BitVec 1)
  | amomaxuW (rd rs1 rs2 : RegIdx) (aq rl : BitVec 1)
  | amomaxuD (rd rs1 rs2 : RegIdx) (aq rl : BitVec 1)
  | amominW (rd rs1 rs2 : RegIdx) (aq rl : BitVec 1)
  | amominD (rd rs1 rs2 : RegIdx) (aq rl : BitVec 1)
  | amominuW (rd rs1 rs2 : RegIdx) (aq rl : BitVec 1)
  | amominuD (rd rs1 rs2 : RegIdx) (aq rl : BitVec 1)
  | amoorW (rd rs1 rs2 : RegIdx) (aq rl : BitVec 1)
  | amoorD (rd rs1 rs2 : RegIdx) (aq rl : BitVec 1)
  | amoswapW (rd rs1 rs2 : RegIdx) (aq rl : BitVec 1)
  | amoswapD (rd rs1 rs2 : RegIdx) (aq rl : BitVec 1)
  | amoxorW (rd rs1 rs2 : RegIdx) (aq rl : BitVec 1)
  | amoxorD (rd rs1 rs2 : RegIdx) (aq rl : BitVec 1)
  | lrW (rd rs1 : RegIdx) (aq rl : BitVec 1)
  | lrD (rd rs1 : RegIdx) (aq rl : BitVec 1)
  | scW (rd rs1 rs2 : RegIdx) (aq rl : BitVec 1)
  | scD (rd rs1 rs2 : RegIdx) (aq rl : BitVec 1)
  deriving DecidableEq, Repr

end Sys2Proof
end

