-- ==== Sys2Proof/Decode.lean ====
section
/-! DEFINITION. Decoding and encoding (30_encoding.md). A word is cut once into the six fields of R82 (`funct7`, `rs2`,
`rs1`, `funct3`, `rd`, `opcode`); `decodeFields` selects the row by opcode, funct3, funct7 and the rs2 selector (R93, R100,
R101, R102), and every immediate is assembled from those six fields (R84 to R88). `encode` goes back through the same
tables. Whether a row is ADMITTED (R103, R104) is no question of the bits: the meaning of the row asks it. -/

namespace Sys2Proof

/-- Why bytes decode to no instruction. -/
inductive DecodeError where
  /-- The word matches no row of spec/opcode_table.json (30_encoding.md R103). Raised by `decodeWord`; `step` turns it
  into the trap IllegalInstruction, as the spec does. Safe. -/
  | noRow (w : Word)
  /-- Fewer than the four bytes of an instruction (30_encoding.md R80). Raised by `decode` on a short list, never on
  what `step` fetches. Safe. -/
  | tooShort (have_ : Nat)
  deriving DecidableEq, Repr

/-! ### The six fields (30_encoding.md R82) -/

/-- inst[31:25] -/
def funct7 (w : Word) : BitVec 7 := w.extractLsb' 25 7
/-- inst[24:20] -/
def fieldRs2 (w : Word) : RegIdx := w.extractLsb' 20 5
/-- inst[19:15] -/
def fieldRs1 (w : Word) : RegIdx := w.extractLsb' 15 5
/-- inst[14:12] -/
def funct3 (w : Word) : BitVec 3 := w.extractLsb' 12 3
/-- inst[11:7] -/
def fieldRd (w : Word) : RegIdx := w.extractLsb' 7 5
/-- inst[6:0] -/
def opcode (w : Word) : BitVec 7 := w.extractLsb' 0 7

/-- A word from its six fields (30_encoding.md R81, R82). -/
def pack (f7 : BitVec 7) (rs2 rs1 : RegIdx) (f3 : BitVec 3) (rd : RegIdx) (op : BitVec 7) : Word :=
  f7 ++ rs2 ++ rs1 ++ f3 ++ rd ++ op

/-! ### Immediates from the fields (30_encoding.md R84 to R88, R91, R92) -/

/-- imm[11:0] = inst[31:20] (R84). -/
def immI (f7 : BitVec 7) (rs2 : RegIdx) : BitVec 12 := f7 ++ rs2
/-- imm[11:5] = inst[31:25], imm[4:0] = inst[11:7] (R85). -/
def immS (f7 : BitVec 7) (rd : RegIdx) : BitVec 12 := f7 ++ rd
/-- imm[12] = inst[31], imm[11] = inst[7], imm[10:5] = inst[30:25], imm[4:1] = inst[11:8], imm[0] = 0 (R86). -/
def offB (f7 : BitVec 7) (rd : RegIdx) : BitVec 13 :=
  f7.extractLsb' 6 1 ++ rd.extractLsb' 0 1 ++ f7.extractLsb' 0 6 ++ rd.extractLsb' 1 4 ++ 0#1
/-- imm[31:12] = inst[31:12] (R87). -/
def immU (f7 : BitVec 7) (rs2 rs1 : RegIdx) (f3 : BitVec 3) : BitVec 20 := f7 ++ rs2 ++ rs1 ++ f3
/-- imm[20] = inst[31], imm[19:12] = inst[19:12], imm[11] = inst[20], imm[10:1] = inst[30:21], imm[0] = 0 (R88). -/
def offJ (f7 : BitVec 7) (rs2 rs1 : RegIdx) (f3 : BitVec 3) : BitVec 21 :=
  f7.extractLsb' 6 1 ++ rs1 ++ f3 ++ rs2.extractLsb' 0 1 ++ f7.extractLsb' 0 6 ++ rs2.extractLsb' 1 4 ++ 0#1
/-- rs3 (R91) or funct5 (R92): inst[31:27]. -/
def hi5 (f7 : BitVec 7) : BitVec 5 := f7.extractLsb' 2 5
/-- fmt of the R4 form: inst[26:25] (R91). -/
def fmt (f7 : BitVec 7) : BitVec 2 := f7.extractLsb' 0 2
/-- aq = inst[26] (R92). -/
def aqBit (f7 : BitVec 7) : BitVec 1 := f7.extractLsb' 1 1
/-- rl = inst[25] (R92). -/
def rlBit (f7 : BitVec 7) : BitVec 1 := f7.extractLsb' 0 1

/-! ### Decoding, one function per major opcode -/

/-- Opcode 0000011, the loads (R93). -/
def decodeLoad (f7 : BitVec 7) (rs2 rs1 : RegIdx) (f3 : BitVec 3) (rd : RegIdx) : Option Instr :=
  match f3 with
  | 0b000#3 => some (.lb rd rs1 (immI f7 rs2))
  | 0b100#3 => some (.lbu rd rs1 (immI f7 rs2))
  | 0b001#3 => some (.lh rd rs1 (immI f7 rs2))
  | 0b101#3 => some (.lhu rd rs1 (immI f7 rs2))
  | 0b010#3 => some (.lw rd rs1 (immI f7 rs2))
  | _ => none

/-- Opcode 0001111, the fences: every bit but opcode and funct3 is ignored by their meaning (R98). -/
def decodeFence (f7 : BitVec 7) (rs2 rs1 : RegIdx) (f3 : BitVec 3) (rd : RegIdx) : Option Instr :=
  match f3 with
  | 0b000#3 => some (.fence rd rs1 (immI f7 rs2))
  | 0b001#3 => some (.fenceI rd rs1 (immI f7 rs2))
  | _ => none

/-- Opcode 0010011, register-immediate arithmetic; the shifts also fix funct7 (R89, R93, R99). -/
def decodeOpImm (f7 : BitVec 7) (rs2 rs1 : RegIdx) (f3 : BitVec 3) (rd : RegIdx) : Option Instr :=
  match f3 with
  | 0b000#3 => some (.addi rd rs1 (immI f7 rs2))
  | 0b111#3 => some (.andi rd rs1 (immI f7 rs2))
  | 0b110#3 => some (.ori rd rs1 (immI f7 rs2))
  | 0b010#3 => some (.slti rd rs1 (immI f7 rs2))
  | 0b011#3 => some (.sltiu rd rs1 (immI f7 rs2))
  | 0b100#3 => some (.xori rd rs1 (immI f7 rs2))
  | 0b001#3 => if f7 = 0x00#7 then some (.slli rd rs1 rs2) else none
  | 0b101#3 => if f7 = 0x00#7 then some (.srli rd rs1 rs2) else if f7 = 0x20#7 then some (.srai rd rs1 rs2) else none

/-- Opcode 0100011, the stores (R93). -/
def decodeStore (f7 : BitVec 7) (rs2 rs1 : RegIdx) (f3 : BitVec 3) (rd : RegIdx) : Option Instr :=
  match f3 with
  | 0b000#3 => some (.sb rs1 rs2 (immS f7 rd))
  | 0b001#3 => some (.sh rs1 rs2 (immS f7 rd))
  | 0b010#3 => some (.sw rs1 rs2 (immS f7 rd))
  | _ => none

/-- Opcode 0110011, register-register arithmetic and the M group (R93, R100). -/
def decodeOp (f7 : BitVec 7) (rs2 rs1 : RegIdx) (f3 : BitVec 3) (rd : RegIdx) : Option Instr :=
  match f7, f3 with
  | 0x00#7, 0b000#3 => some (.add rd rs1 rs2)
  | 0x00#7, 0b111#3 => some (.and rd rs1 rs2)
  | 0x00#7, 0b110#3 => some (.or rd rs1 rs2)
  | 0x00#7, 0b001#3 => some (.sll rd rs1 rs2)
  | 0x00#7, 0b010#3 => some (.slt rd rs1 rs2)
  | 0x00#7, 0b011#3 => some (.sltu rd rs1 rs2)
  | 0x20#7, 0b101#3 => some (.sra rd rs1 rs2)
  | 0x00#7, 0b101#3 => some (.srl rd rs1 rs2)
  | 0x20#7, 0b000#3 => some (.sub rd rs1 rs2)
  | 0x00#7, 0b100#3 => some (.xor rd rs1 rs2)
  | 0x01#7, 0b000#3 => some (.mul rd rs1 rs2)
  | 0x01#7, 0b001#3 => some (.mulh rd rs1 rs2)
  | 0x01#7, 0b010#3 => some (.mulhsu rd rs1 rs2)
  | 0x01#7, 0b011#3 => some (.mulhu rd rs1 rs2)
  | 0x01#7, 0b100#3 => some (.div rd rs1 rs2)
  | 0x01#7, 0b101#3 => some (.divu rd rs1 rs2)
  | 0x01#7, 0b110#3 => some (.rem rd rs1 rs2)
  | 0x01#7, 0b111#3 => some (.remu rd rs1 rs2)
  | _, _ => none

/-- Opcode 1100011, the branches (R93). -/
def decodeBranch (f7 : BitVec 7) (rs2 rs1 : RegIdx) (f3 : BitVec 3) (rd : RegIdx) : Option Instr :=
  match f3 with
  | 0b000#3 => some (.beq rs1 rs2 (offB f7 rd))
  | 0b101#3 => some (.bge rs1 rs2 (offB f7 rd))
  | 0b111#3 => some (.bgeu rs1 rs2 (offB f7 rd))
  | 0b100#3 => some (.blt rs1 rs2 (offB f7 rd))
  | 0b110#3 => some (.bltu rs1 rs2 (offB f7 rd))
  | 0b001#3 => some (.bne rs1 rs2 (offB f7 rd))
  | _ => none

/-- Opcode 1110011: ecall and ebreak are exactly the words 0x00000073 and 0x00100073 (R96); the CSR instructions (R93). -/
def decodeSystem (f7 : BitVec 7) (rs2 rs1 : RegIdx) (f3 : BitVec 3) (rd : RegIdx) : Option Instr :=
  match f3 with
  | 0b000#3 =>
    if f7 = 0x00#7 ∧ rs1 = 0#5 ∧ rd = 0#5 then
      if rs2 = 0x00#5 then some .ecall else if rs2 = 0x01#5 then some .ebreak else none
    else none
  | 0b011#3 => some (.csrrc rd rs1 (immI f7 rs2))
  | 0b111#3 => some (.csrrci rd rs1 (immI f7 rs2))
  | 0b010#3 => some (.csrrs rd rs1 (immI f7 rs2))
  | 0b110#3 => some (.csrrsi rd rs1 (immI f7 rs2))
  | 0b001#3 => some (.csrrw rd rs1 (immI f7 rs2))
  | 0b101#3 => some (.csrrwi rd rs1 (immI f7 rs2))
  | _ => none

/-- Opcode 0101111, the A group: funct5 and funct3 select, aq and rl are free, lr has rs2 = 00000 (R101). -/
def decodeAmo (f7 : BitVec 7) (rs2 rs1 : RegIdx) (f3 : BitVec 3) (rd : RegIdx) : Option Instr :=
  match hi5 f7, f3, rs2 with
  | 0x00#5, 0b010#3, _ => some (.amoaddW rd rs1 rs2 (aqBit f7) (rlBit f7))
  | 0x00#5, 0b011#3, _ => some (.amoaddD rd rs1 rs2 (aqBit f7) (rlBit f7))
  | 0x0C#5, 0b010#3, _ => some (.amoandW rd rs1 rs2 (aqBit f7) (rlBit f7))
  | 0x0C#5, 0b011#3, _ => some (.amoandD rd rs1 rs2 (aqBit f7) (rlBit f7))
  | 0x14#5, 0b010#3, _ => some (.amomaxW rd rs1 rs2 (aqBit f7) (rlBit f7))
  | 0x14#5, 0b011#3, _ => some (.amomaxD rd rs1 rs2 (aqBit f7) (rlBit f7))
  | 0x1C#5, 0b010#3, _ => some (.amomaxuW rd rs1 rs2 (aqBit f7) (rlBit f7))
  | 0x1C#5, 0b011#3, _ => some (.amomaxuD rd rs1 rs2 (aqBit f7) (rlBit f7))
  | 0x10#5, 0b010#3, _ => some (.amominW rd rs1 rs2 (aqBit f7) (rlBit f7))
  | 0x10#5, 0b011#3, _ => some (.amominD rd rs1 rs2 (aqBit f7) (rlBit f7))
  | 0x18#5, 0b010#3, _ => some (.amominuW rd rs1 rs2 (aqBit f7) (rlBit f7))
  | 0x18#5, 0b011#3, _ => some (.amominuD rd rs1 rs2 (aqBit f7) (rlBit f7))
  | 0x08#5, 0b010#3, _ => some (.amoorW rd rs1 rs2 (aqBit f7) (rlBit f7))
  | 0x08#5, 0b011#3, _ => some (.amoorD rd rs1 rs2 (aqBit f7) (rlBit f7))
  | 0x01#5, 0b010#3, _ => some (.amoswapW rd rs1 rs2 (aqBit f7) (rlBit f7))
  | 0x01#5, 0b011#3, _ => some (.amoswapD rd rs1 rs2 (aqBit f7) (rlBit f7))
  | 0x04#5, 0b010#3, _ => some (.amoxorW rd rs1 rs2 (aqBit f7) (rlBit f7))
  | 0x04#5, 0b011#3, _ => some (.amoxorD rd rs1 rs2 (aqBit f7) (rlBit f7))
  | 0x02#5, 0b010#3, 0x00#5 => some (.lrW rd rs1 (aqBit f7) (rlBit f7))
  | 0x02#5, 0b011#3, 0x00#5 => some (.lrD rd rs1 (aqBit f7) (rlBit f7))
  | 0x03#5, 0b010#3, _ => some (.scW rd rs1 rs2 (aqBit f7) (rlBit f7))
  | 0x03#5, 0b011#3, _ => some (.scD rd rs1 rs2 (aqBit f7) (rlBit f7))
  | _, _, _ => none

/-- Opcode 0000111: flw, fld (R102). -/
def decodeFpLoad (f7 : BitVec 7) (rs2 rs1 : RegIdx) (f3 : BitVec 3) (rd : RegIdx) : Option Instr :=
  match f3 with
  | 0b010#3 => some (.flw rd rs1 (immI f7 rs2))
  | 0b011#3 => some (.fld rd rs1 (immI f7 rs2))
  | _ => none

/-- Opcode 0100111: fsw, fsd (R102). -/
def decodeFpStore (f7 : BitVec 7) (rs2 rs1 : RegIdx) (f3 : BitVec 3) (rd : RegIdx) : Option Instr :=
  match f3 with
  | 0b010#3 => some (.fsw rs1 rs2 (immS f7 rd))
  | 0b011#3 => some (.fsd rs1 rs2 (immS f7 rd))
  | _ => none

/-- Opcode 1000011, fmt 00 single, 01 double (R91, R102). -/
def decodeFmadd (f7 : BitVec 7) (rs2 rs1 : RegIdx) (f3 : BitVec 3) (rd : RegIdx) : Option Instr :=
  match fmt f7 with
  | 0b00#2 => some (.fmaddS rd rs1 rs2 (hi5 f7) f3)
  | 0b01#2 => some (.fmaddD rd rs1 rs2 (hi5 f7) f3)
  | _ => none

/-- Opcode 1000111, fmt 00 single, 01 double (R91, R102). -/
def decodeFmsub (f7 : BitVec 7) (rs2 rs1 : RegIdx) (f3 : BitVec 3) (rd : RegIdx) : Option Instr :=
  match fmt f7 with
  | 0b00#2 => some (.fmsubS rd rs1 rs2 (hi5 f7) f3)
  | 0b01#2 => some (.fmsubD rd rs1 rs2 (hi5 f7) f3)
  | _ => none

/-- Opcode 1001011, fmt 00 single, 01 double (R91, R102). -/
def decodeFnmsub (f7 : BitVec 7) (rs2 rs1 : RegIdx) (f3 : BitVec 3) (rd : RegIdx) : Option Instr :=
  match fmt f7 with
  | 0b00#2 => some (.fnmsubS rd rs1 rs2 (hi5 f7) f3)
  | 0b01#2 => some (.fnmsubD rd rs1 rs2 (hi5 f7) f3)
  | _ => none

/-- Opcode 1001111, fmt 00 single, 01 double (R91, R102). -/
def decodeFnmadd (f7 : BitVec 7) (rs2 rs1 : RegIdx) (f3 : BitVec 3) (rd : RegIdx) : Option Instr :=
  match fmt f7 with
  | 0b00#2 => some (.fnmaddS rd rs1 rs2 (hi5 f7) f3)
  | 0b01#2 => some (.fnmaddD rd rs1 rs2 (hi5 f7) f3)
  | _ => none

/-- Opcode 1010011: funct7, the rs2 selector of the one-operand rows, and funct3 where it is no rounding mode (R102). -/
def decodeOpFp (f7 : BitVec 7) (rs2 rs1 : RegIdx) (f3 : BitVec 3) (rd : RegIdx) : Option Instr :=
  match f7, rs2, f3 with
  | 0x00#7, _, _ => some (.faddS rd rs1 rs2 f3)
  | 0x01#7, _, _ => some (.faddD rd rs1 rs2 f3)
  | 0x04#7, _, _ => some (.fsubS rd rs1 rs2 f3)
  | 0x05#7, _, _ => some (.fsubD rd rs1 rs2 f3)
  | 0x08#7, _, _ => some (.fmulS rd rs1 rs2 f3)
  | 0x09#7, _, _ => some (.fmulD rd rs1 rs2 f3)
  | 0x0C#7, _, _ => some (.fdivS rd rs1 rs2 f3)
  | 0x0D#7, _, _ => some (.fdivD rd rs1 rs2 f3)
  | 0x2C#7, 0x00#5, _ => some (.fsqrtS rd rs1 f3)
  | 0x2D#7, 0x00#5, _ => some (.fsqrtD rd rs1 f3)
  | 0x10#7, _, 0b000#3 => some (.fsgnjS rd rs1 rs2)
  | 0x11#7, _, 0b000#3 => some (.fsgnjD rd rs1 rs2)
  | 0x10#7, _, 0b001#3 => some (.fsgnjnS rd rs1 rs2)
  | 0x11#7, _, 0b001#3 => some (.fsgnjnD rd rs1 rs2)
  | 0x10#7, _, 0b010#3 => some (.fsgnjxS rd rs1 rs2)
  | 0x11#7, _, 0b010#3 => some (.fsgnjxD rd rs1 rs2)
  | 0x14#7, _, 0b000#3 => some (.fminS rd rs1 rs2)
  | 0x15#7, _, 0b000#3 => some (.fminD rd rs1 rs2)
  | 0x14#7, _, 0b001#3 => some (.fmaxS rd rs1 rs2)
  | 0x15#7, _, 0b001#3 => some (.fmaxD rd rs1 rs2)
  | 0x50#7, _, 0b010#3 => some (.feqS rd rs1 rs2)
  | 0x51#7, _, 0b010#3 => some (.feqD rd rs1 rs2)
  | 0x50#7, _, 0b001#3 => some (.fltS rd rs1 rs2)
  | 0x51#7, _, 0b001#3 => some (.fltD rd rs1 rs2)
  | 0x50#7, _, 0b000#3 => some (.fleS rd rs1 rs2)
  | 0x51#7, _, 0b000#3 => some (.fleD rd rs1 rs2)
  | 0x70#7, 0x00#5, 0b001#3 => some (.fclassS rd rs1)
  | 0x71#7, 0x00#5, 0b001#3 => some (.fclassD rd rs1)
  | 0x78#7, 0x00#5, 0b000#3 => some (.fmvSX rd rs1)
  | 0x79#7, 0x00#5, 0b000#3 => some (.fmvDX rd rs1)
  | 0x70#7, 0x00#5, 0b000#3 => some (.fmvXS rd rs1)
  | 0x71#7, 0x00#5, 0b000#3 => some (.fmvXD rd rs1)
  | 0x21#7, 0x00#5, _ => some (.fcvtDS rd rs1 f3)
  | 0x20#7, 0x01#5, _ => some (.fcvtSD rd rs1 f3)
  | 0x68#7, 0x00#5, _ => some (.fcvtSW rd rs1 f3)
  | 0x69#7, 0x00#5, _ => some (.fcvtDW rd rs1 f3)
  | 0x68#7, 0x02#5, _ => some (.fcvtSL rd rs1 f3)
  | 0x69#7, 0x02#5, _ => some (.fcvtDL rd rs1 f3)
  | 0x68#7, 0x01#5, _ => some (.fcvtSWu rd rs1 f3)
  | 0x69#7, 0x01#5, _ => some (.fcvtDWu rd rs1 f3)
  | 0x68#7, 0x03#5, _ => some (.fcvtSLu rd rs1 f3)
  | 0x69#7, 0x03#5, _ => some (.fcvtDLu rd rs1 f3)
  | 0x60#7, 0x00#5, _ => some (.fcvtWS rd rs1 f3)
  | 0x61#7, 0x00#5, _ => some (.fcvtWD rd rs1 f3)
  | 0x60#7, 0x02#5, _ => some (.fcvtLS rd rs1 f3)
  | 0x61#7, 0x02#5, _ => some (.fcvtLD rd rs1 f3)
  | 0x60#7, 0x01#5, _ => some (.fcvtWuS rd rs1 f3)
  | 0x61#7, 0x01#5, _ => some (.fcvtWuD rd rs1 f3)
  | 0x60#7, 0x03#5, _ => some (.fcvtLuS rd rs1 f3)
  | 0x61#7, 0x03#5, _ => some (.fcvtLuD rd rs1 f3)
  | _, _, _ => none

/-- The row that six fields select, if any (30_encoding.md R93, R94, R100 to R102). -/
def decodeFields (f7 : BitVec 7) (rs2 rs1 : RegIdx) (f3 : BitVec 3) (rd : RegIdx) (op : BitVec 7) : Option Instr :=
  match op with
  | 0x03#7 => decodeLoad f7 rs2 rs1 f3 rd
  | 0x0F#7 => decodeFence f7 rs2 rs1 f3 rd
  | 0x13#7 => decodeOpImm f7 rs2 rs1 f3 rd
  | 0x23#7 => decodeStore f7 rs2 rs1 f3 rd
  | 0x33#7 => decodeOp f7 rs2 rs1 f3 rd
  | 0x63#7 => decodeBranch f7 rs2 rs1 f3 rd
  | 0x73#7 => decodeSystem f7 rs2 rs1 f3 rd
  | 0x2F#7 => decodeAmo f7 rs2 rs1 f3 rd
  | 0x07#7 => decodeFpLoad f7 rs2 rs1 f3 rd
  | 0x27#7 => decodeFpStore f7 rs2 rs1 f3 rd
  | 0x43#7 => decodeFmadd f7 rs2 rs1 f3 rd
  | 0x47#7 => decodeFmsub f7 rs2 rs1 f3 rd
  | 0x4B#7 => decodeFnmsub f7 rs2 rs1 f3 rd
  | 0x4F#7 => decodeFnmadd f7 rs2 rs1 f3 rd
  | 0x53#7 => decodeOpFp f7 rs2 rs1 f3 rd
  | 0x17#7 => some (.auipc rd (immU f7 rs2 rs1 f3))
  | 0x37#7 => some (.lui rd (immU f7 rs2 rs1 f3))
  | 0x67#7 => if f3 = 0b000#3 then some (.jalr rd rs1 (immI f7 rs2)) else none
  | 0x6F#7 => some (.jal rd (offJ f7 rs2 rs1 f3))
  | _ => none

/-- The instruction of a word, or the name of why there is none (30_encoding.md R103, R105). -/
def decodeWord (w : Word) : Except DecodeError Instr :=
  match decodeFields (funct7 w) (fieldRs2 w) (fieldRs1 w) (funct3 w) (fieldRd w) (opcode w) with
  | some i => .ok i
  | none => .error (.noRow w)

/-- A word from its four bytes, the lowest address first (20_memory.md R52, R53). -/
def wordOfBytes (b0 b1 b2 b3 : Byte) : Word := b3 ++ b2 ++ b1 ++ b0

/-- Decoding of any bytes: the instruction of the first four, with the rest of the list (30_encoding.md R80). -/
def decode (bytes : List Byte) : Except DecodeError (Instr × List Byte) :=
  match bytes with
  | b0 :: b1 :: b2 :: b3 :: rest =>
    match decodeWord (wordOfBytes b0 b1 b2 b3) with
    | .ok i => .ok (i, rest)
    | .error e => .error e
  | short => .error (.tooShort short.length)

/-! ### Encoding -/

/-- Format I: imm[11:5] and imm[4:0] around rs1, funct3, rd (R81, R84). -/
def packI (imm : BitVec 12) (rs1 : RegIdx) (f3 : BitVec 3) (rd : RegIdx) (op : BitVec 7) : Word :=
  pack (imm.extractLsb' 5 7) (imm.extractLsb' 0 5) rs1 f3 rd op
/-- Format S (R81, R85). -/
def packS (imm : BitVec 12) (rs2 rs1 : RegIdx) (f3 : BitVec 3) (op : BitVec 7) : Word :=
  pack (imm.extractLsb' 5 7) rs2 rs1 f3 (imm.extractLsb' 0 5) op
/-- Format SB: imm[12], imm[10:5] and imm[4:1], imm[11] (R81, R86). -/
def packB (off : BitVec 13) (rs2 rs1 : RegIdx) (f3 : BitVec 3) (op : BitVec 7) : Word :=
  pack (off.extractLsb' 12 1 ++ off.extractLsb' 5 6) rs2 rs1 f3 (off.extractLsb' 1 4 ++ off.extractLsb' 11 1) op
/-- Format U (R81, R87). -/
def packU (imm : BitVec 20) (rd : RegIdx) (op : BitVec 7) : Word :=
  pack (imm.extractLsb' 13 7) (imm.extractLsb' 8 5) (imm.extractLsb' 3 5) (imm.extractLsb' 0 3) rd op
/-- Format UJ: imm[20], imm[10:5]; imm[4:1], imm[11]; imm[19:15]; imm[14:12] (R81, R88). -/
def packJ (off : BitVec 21) (rd : RegIdx) (op : BitVec 7) : Word :=
  pack (off.extractLsb' 20 1 ++ off.extractLsb' 5 6) (off.extractLsb' 1 4 ++ off.extractLsb' 11 1)
    (off.extractLsb' 15 5) (off.extractLsb' 12 3) rd op
/-- The R4 form and the A group: five high bits, two bits, then as R (R91, R92). -/
def packHi5 (hi : BitVec 5) (lo : BitVec 2) (rs2 rs1 : RegIdx) (f3 : BitVec 3) (rd : RegIdx) (op : BitVec 7) : Word :=
  pack (hi ++ lo) rs2 rs1 f3 rd op

/-- The word of an instruction (30_encoding.md R93, R100 to R102). The free bits of fence and fence.i are the ones the
instruction carries. For an instruction that is not well formed the low bit of the offset is dropped. -/
def encode (i : Instr) : Word :=
  match i with
  | .add rd rs1 rs2 => pack 0x00#7 rs2 rs1 0b000#3 rd 0x33#7
  | .addi rd rs1 imm => packI imm rs1 0b000#3 rd 0x13#7
  | .and rd rs1 rs2 => pack 0x00#7 rs2 rs1 0b111#3 rd 0x33#7
  | .andi rd rs1 imm => packI imm rs1 0b111#3 rd 0x13#7
  | .auipc rd imm => packU imm rd 0x17#7
  | .lui rd imm => packU imm rd 0x37#7
  | .or rd rs1 rs2 => pack 0x00#7 rs2 rs1 0b110#3 rd 0x33#7
  | .ori rd rs1 imm => packI imm rs1 0b110#3 rd 0x13#7
  | .sll rd rs1 rs2 => pack 0x00#7 rs2 rs1 0b001#3 rd 0x33#7
  | .slli rd rs1 shamt => pack 0x00#7 shamt rs1 0b001#3 rd 0x13#7
  | .slt rd rs1 rs2 => pack 0x00#7 rs2 rs1 0b010#3 rd 0x33#7
  | .slti rd rs1 imm => packI imm rs1 0b010#3 rd 0x13#7
  | .sltiu rd rs1 imm => packI imm rs1 0b011#3 rd 0x13#7
  | .sltu rd rs1 rs2 => pack 0x00#7 rs2 rs1 0b011#3 rd 0x33#7
  | .sra rd rs1 rs2 => pack 0x20#7 rs2 rs1 0b101#3 rd 0x33#7
  | .srai rd rs1 shamt => pack 0x20#7 shamt rs1 0b101#3 rd 0x13#7
  | .srl rd rs1 rs2 => pack 0x00#7 rs2 rs1 0b101#3 rd 0x33#7
  | .srli rd rs1 shamt => pack 0x00#7 shamt rs1 0b101#3 rd 0x13#7
  | .sub rd rs1 rs2 => pack 0x20#7 rs2 rs1 0b000#3 rd 0x33#7
  | .xor rd rs1 rs2 => pack 0x00#7 rs2 rs1 0b100#3 rd 0x33#7
  | .xori rd rs1 imm => packI imm rs1 0b100#3 rd 0x13#7
  | .beq rs1 rs2 off => packB off rs2 rs1 0b000#3 0x63#7
  | .bge rs1 rs2 off => packB off rs2 rs1 0b101#3 0x63#7
  | .bgeu rs1 rs2 off => packB off rs2 rs1 0b111#3 0x63#7
  | .blt rs1 rs2 off => packB off rs2 rs1 0b100#3 0x63#7
  | .bltu rs1 rs2 off => packB off rs2 rs1 0b110#3 0x63#7
  | .bne rs1 rs2 off => packB off rs2 rs1 0b001#3 0x63#7
  | .jal rd off => packJ off rd 0x6F#7
  | .jalr rd rs1 imm => packI imm rs1 0b000#3 rd 0x67#7
  | .lb rd rs1 imm => packI imm rs1 0b000#3 rd 0x03#7
  | .lbu rd rs1 imm => packI imm rs1 0b100#3 rd 0x03#7
  | .lh rd rs1 imm => packI imm rs1 0b001#3 rd 0x03#7
  | .lhu rd rs1 imm => packI imm rs1 0b101#3 rd 0x03#7
  | .lw rd rs1 imm => packI imm rs1 0b010#3 rd 0x03#7
  | .sb rs1 rs2 imm => packS imm rs2 rs1 0b000#3 0x23#7
  | .sh rs1 rs2 imm => packS imm rs2 rs1 0b001#3 0x23#7
  | .sw rs1 rs2 imm => packS imm rs2 rs1 0b010#3 0x23#7
  | .csrrc rd rs1 csr => packI csr rs1 0b011#3 rd 0x73#7
  | .csrrci rd uimm csr => packI csr uimm 0b111#3 rd 0x73#7
  | .csrrs rd rs1 csr => packI csr rs1 0b010#3 rd 0x73#7
  | .csrrsi rd uimm csr => packI csr uimm 0b110#3 rd 0x73#7
  | .csrrw rd rs1 csr => packI csr rs1 0b001#3 rd 0x73#7
  | .csrrwi rd uimm csr => packI csr uimm 0b101#3 rd 0x73#7
  | .ebreak => pack 0x00#7 0x01#5 0#5 0b000#3 0#5 0x73#7
  | .ecall => pack 0x00#7 0x00#5 0#5 0b000#3 0#5 0x73#7
  | .fence rd rs1 imm => packI imm rs1 0b000#3 rd 0x0F#7
  | .fenceI rd rs1 imm => packI imm rs1 0b001#3 rd 0x0F#7
  | .mul rd rs1 rs2 => pack 0x01#7 rs2 rs1 0b000#3 rd 0x33#7
  | .mulh rd rs1 rs2 => pack 0x01#7 rs2 rs1 0b001#3 rd 0x33#7
  | .mulhsu rd rs1 rs2 => pack 0x01#7 rs2 rs1 0b010#3 rd 0x33#7
  | .mulhu rd rs1 rs2 => pack 0x01#7 rs2 rs1 0b011#3 rd 0x33#7
  | .div rd rs1 rs2 => pack 0x01#7 rs2 rs1 0b100#3 rd 0x33#7
  | .divu rd rs1 rs2 => pack 0x01#7 rs2 rs1 0b101#3 rd 0x33#7
  | .rem rd rs1 rs2 => pack 0x01#7 rs2 rs1 0b110#3 rd 0x33#7
  | .remu rd rs1 rs2 => pack 0x01#7 rs2 rs1 0b111#3 rd 0x33#7
  | .flw rd rs1 imm => packI imm rs1 0b010#3 rd 0x07#7
  | .fld rd rs1 imm => packI imm rs1 0b011#3 rd 0x07#7
  | .fsw rs1 rs2 imm => packS imm rs2 rs1 0b010#3 0x27#7
  | .fsd rs1 rs2 imm => packS imm rs2 rs1 0b011#3 0x27#7
  | .faddS rd rs1 rs2 rm => pack 0x00#7 rs2 rs1 rm rd 0x53#7
  | .faddD rd rs1 rs2 rm => pack 0x01#7 rs2 rs1 rm rd 0x53#7
  | .fsubS rd rs1 rs2 rm => pack 0x04#7 rs2 rs1 rm rd 0x53#7
  | .fsubD rd rs1 rs2 rm => pack 0x05#7 rs2 rs1 rm rd 0x53#7
  | .fmulS rd rs1 rs2 rm => pack 0x08#7 rs2 rs1 rm rd 0x53#7
  | .fmulD rd rs1 rs2 rm => pack 0x09#7 rs2 rs1 rm rd 0x53#7
  | .fdivS rd rs1 rs2 rm => pack 0x0C#7 rs2 rs1 rm rd 0x53#7
  | .fdivD rd rs1 rs2 rm => pack 0x0D#7 rs2 rs1 rm rd 0x53#7
  | .fsqrtS rd rs1 rm => pack 0x2C#7 0x00#5 rs1 rm rd 0x53#7
  | .fsqrtD rd rs1 rm => pack 0x2D#7 0x00#5 rs1 rm rd 0x53#7
  | .fmaddS rd rs1 rs2 rs3 rm => packHi5 rs3 0b00#2 rs2 rs1 rm rd 0x43#7
  | .fmaddD rd rs1 rs2 rs3 rm => packHi5 rs3 0b01#2 rs2 rs1 rm rd 0x43#7
  | .fmsubS rd rs1 rs2 rs3 rm => packHi5 rs3 0b00#2 rs2 rs1 rm rd 0x47#7
  | .fmsubD rd rs1 rs2 rs3 rm => packHi5 rs3 0b01#2 rs2 rs1 rm rd 0x47#7
  | .fnmsubS rd rs1 rs2 rs3 rm => packHi5 rs3 0b00#2 rs2 rs1 rm rd 0x4B#7
  | .fnmsubD rd rs1 rs2 rs3 rm => packHi5 rs3 0b01#2 rs2 rs1 rm rd 0x4B#7
  | .fnmaddS rd rs1 rs2 rs3 rm => packHi5 rs3 0b00#2 rs2 rs1 rm rd 0x4F#7
  | .fnmaddD rd rs1 rs2 rs3 rm => packHi5 rs3 0b01#2 rs2 rs1 rm rd 0x4F#7
  | .fsgnjS rd rs1 rs2 => pack 0x10#7 rs2 rs1 0b000#3 rd 0x53#7
  | .fsgnjD rd rs1 rs2 => pack 0x11#7 rs2 rs1 0b000#3 rd 0x53#7
  | .fsgnjnS rd rs1 rs2 => pack 0x10#7 rs2 rs1 0b001#3 rd 0x53#7
  | .fsgnjnD rd rs1 rs2 => pack 0x11#7 rs2 rs1 0b001#3 rd 0x53#7
  | .fsgnjxS rd rs1 rs2 => pack 0x10#7 rs2 rs1 0b010#3 rd 0x53#7
  | .fsgnjxD rd rs1 rs2 => pack 0x11#7 rs2 rs1 0b010#3 rd 0x53#7
  | .fminS rd rs1 rs2 => pack 0x14#7 rs2 rs1 0b000#3 rd 0x53#7
  | .fminD rd rs1 rs2 => pack 0x15#7 rs2 rs1 0b000#3 rd 0x53#7
  | .fmaxS rd rs1 rs2 => pack 0x14#7 rs2 rs1 0b001#3 rd 0x53#7
  | .fmaxD rd rs1 rs2 => pack 0x15#7 rs2 rs1 0b001#3 rd 0x53#7
  | .feqS rd rs1 rs2 => pack 0x50#7 rs2 rs1 0b010#3 rd 0x53#7
  | .feqD rd rs1 rs2 => pack 0x51#7 rs2 rs1 0b010#3 rd 0x53#7
  | .fltS rd rs1 rs2 => pack 0x50#7 rs2 rs1 0b001#3 rd 0x53#7
  | .fltD rd rs1 rs2 => pack 0x51#7 rs2 rs1 0b001#3 rd 0x53#7
  | .fleS rd rs1 rs2 => pack 0x50#7 rs2 rs1 0b000#3 rd 0x53#7
  | .fleD rd rs1 rs2 => pack 0x51#7 rs2 rs1 0b000#3 rd 0x53#7
  | .fclassS rd rs1 => pack 0x70#7 0x00#5 rs1 0b001#3 rd 0x53#7
  | .fclassD rd rs1 => pack 0x71#7 0x00#5 rs1 0b001#3 rd 0x53#7
  | .fmvSX rd rs1 => pack 0x78#7 0x00#5 rs1 0b000#3 rd 0x53#7
  | .fmvDX rd rs1 => pack 0x79#7 0x00#5 rs1 0b000#3 rd 0x53#7
  | .fmvXS rd rs1 => pack 0x70#7 0x00#5 rs1 0b000#3 rd 0x53#7
  | .fmvXD rd rs1 => pack 0x71#7 0x00#5 rs1 0b000#3 rd 0x53#7
  | .fcvtDS rd rs1 rm => pack 0x21#7 0x00#5 rs1 rm rd 0x53#7
  | .fcvtSD rd rs1 rm => pack 0x20#7 0x01#5 rs1 rm rd 0x53#7
  | .fcvtSW rd rs1 rm => pack 0x68#7 0x00#5 rs1 rm rd 0x53#7
  | .fcvtDW rd rs1 rm => pack 0x69#7 0x00#5 rs1 rm rd 0x53#7
  | .fcvtSL rd rs1 rm => pack 0x68#7 0x02#5 rs1 rm rd 0x53#7
  | .fcvtDL rd rs1 rm => pack 0x69#7 0x02#5 rs1 rm rd 0x53#7
  | .fcvtSWu rd rs1 rm => pack 0x68#7 0x01#5 rs1 rm rd 0x53#7
  | .fcvtDWu rd rs1 rm => pack 0x69#7 0x01#5 rs1 rm rd 0x53#7
  | .fcvtSLu rd rs1 rm => pack 0x68#7 0x03#5 rs1 rm rd 0x53#7
  | .fcvtDLu rd rs1 rm => pack 0x69#7 0x03#5 rs1 rm rd 0x53#7
  | .fcvtWS rd rs1 rm => pack 0x60#7 0x00#5 rs1 rm rd 0x53#7
  | .fcvtWD rd rs1 rm => pack 0x61#7 0x00#5 rs1 rm rd 0x53#7
  | .fcvtLS rd rs1 rm => pack 0x60#7 0x02#5 rs1 rm rd 0x53#7
  | .fcvtLD rd rs1 rm => pack 0x61#7 0x02#5 rs1 rm rd 0x53#7
  | .fcvtWuS rd rs1 rm => pack 0x60#7 0x01#5 rs1 rm rd 0x53#7
  | .fcvtWuD rd rs1 rm => pack 0x61#7 0x01#5 rs1 rm rd 0x53#7
  | .fcvtLuS rd rs1 rm => pack 0x60#7 0x03#5 rs1 rm rd 0x53#7
  | .fcvtLuD rd rs1 rm => pack 0x61#7 0x03#5 rs1 rm rd 0x53#7
  | .amoaddW rd rs1 rs2 aq rl => packHi5 0x00#5 (aq ++ rl) rs2 rs1 0b010#3 rd 0x2F#7
  | .amoaddD rd rs1 rs2 aq rl => packHi5 0x00#5 (aq ++ rl) rs2 rs1 0b011#3 rd 0x2F#7
  | .amoandW rd rs1 rs2 aq rl => packHi5 0x0C#5 (aq ++ rl) rs2 rs1 0b010#3 rd 0x2F#7
  | .amoandD rd rs1 rs2 aq rl => packHi5 0x0C#5 (aq ++ rl) rs2 rs1 0b011#3 rd 0x2F#7
  | .amomaxW rd rs1 rs2 aq rl => packHi5 0x14#5 (aq ++ rl) rs2 rs1 0b010#3 rd 0x2F#7
  | .amomaxD rd rs1 rs2 aq rl => packHi5 0x14#5 (aq ++ rl) rs2 rs1 0b011#3 rd 0x2F#7
  | .amomaxuW rd rs1 rs2 aq rl => packHi5 0x1C#5 (aq ++ rl) rs2 rs1 0b010#3 rd 0x2F#7
  | .amomaxuD rd rs1 rs2 aq rl => packHi5 0x1C#5 (aq ++ rl) rs2 rs1 0b011#3 rd 0x2F#7
  | .amominW rd rs1 rs2 aq rl => packHi5 0x10#5 (aq ++ rl) rs2 rs1 0b010#3 rd 0x2F#7
  | .amominD rd rs1 rs2 aq rl => packHi5 0x10#5 (aq ++ rl) rs2 rs1 0b011#3 rd 0x2F#7
  | .amominuW rd rs1 rs2 aq rl => packHi5 0x18#5 (aq ++ rl) rs2 rs1 0b010#3 rd 0x2F#7
  | .amominuD rd rs1 rs2 aq rl => packHi5 0x18#5 (aq ++ rl) rs2 rs1 0b011#3 rd 0x2F#7
  | .amoorW rd rs1 rs2 aq rl => packHi5 0x08#5 (aq ++ rl) rs2 rs1 0b010#3 rd 0x2F#7
  | .amoorD rd rs1 rs2 aq rl => packHi5 0x08#5 (aq ++ rl) rs2 rs1 0b011#3 rd 0x2F#7
  | .amoswapW rd rs1 rs2 aq rl => packHi5 0x01#5 (aq ++ rl) rs2 rs1 0b010#3 rd 0x2F#7
  | .amoswapD rd rs1 rs2 aq rl => packHi5 0x01#5 (aq ++ rl) rs2 rs1 0b011#3 rd 0x2F#7
  | .amoxorW rd rs1 rs2 aq rl => packHi5 0x04#5 (aq ++ rl) rs2 rs1 0b010#3 rd 0x2F#7
  | .amoxorD rd rs1 rs2 aq rl => packHi5 0x04#5 (aq ++ rl) rs2 rs1 0b011#3 rd 0x2F#7
  | .lrW rd rs1 aq rl => packHi5 0x02#5 (aq ++ rl) 0x00#5 rs1 0b010#3 rd 0x2F#7
  | .lrD rd rs1 aq rl => packHi5 0x02#5 (aq ++ rl) 0x00#5 rs1 0b011#3 rd 0x2F#7
  | .scW rd rs1 rs2 aq rl => packHi5 0x03#5 (aq ++ rl) rs2 rs1 0b010#3 rd 0x2F#7
  | .scD rd rs1 rs2 aq rl => packHi5 0x03#5 (aq ++ rl) rs2 rs1 0b011#3 rd 0x2F#7

/-- The four bytes of an instruction, the lowest address first (20_memory.md R52, R53). -/
def encodeBytes (i : Instr) : List Byte :=
  let w := encode i
  [w.extractLsb' 0 8, w.extractLsb' 8 8, w.extractLsb' 16 8, w.extractLsb' 24 8]

/-- The bytes of an instruction given as a number whose bit 0 is the least significant bit of the first word; bits at
`nbits` and above are 0. -/
def tableBytes (nbits w : Nat) : List Byte :=
  let v : Word := BitVec.ofNat 32 (w % 2 ^ nbits)
  [v.extractLsb' 0 8, v.extractLsb' 8 8, v.extractLsb' 16 8, v.extractLsb' 24 8]

/-- What the decoder reads from a row of the opcode table (host interface). -/
def decodeTableWord (nbits w : Nat) : Option Instr :=
  match decode (tableBytes nbits w) with
  | .ok (i, _) => some i
  | .error _ => none

/-! ### The opcode table -/

/-- The mask and the match value of an instruction's row, the numbers of spec/opcode_table.json. -/
def tableRow (i : Instr) : Word × Word :=
  match i with
  | .add _ _ _ => (0xFE00707F#32, 0x00000033#32)
  | .addi _ _ _ => (0x0000707F#32, 0x00000013#32)
  | .and _ _ _ => (0xFE00707F#32, 0x00007033#32)
  | .andi _ _ _ => (0x0000707F#32, 0x00007013#32)
  | .auipc _ _ => (0x0000007F#32, 0x00000017#32)
  | .lui _ _ => (0x0000007F#32, 0x00000037#32)
  | .or _ _ _ => (0xFE00707F#32, 0x00006033#32)
  | .ori _ _ _ => (0x0000707F#32, 0x00006013#32)
  | .sll _ _ _ => (0xFE00707F#32, 0x00001033#32)
  | .slli _ _ _ => (0xFE00707F#32, 0x00001013#32)
  | .slt _ _ _ => (0xFE00707F#32, 0x00002033#32)
  | .slti _ _ _ => (0x0000707F#32, 0x00002013#32)
  | .sltiu _ _ _ => (0x0000707F#32, 0x00003013#32)
  | .sltu _ _ _ => (0xFE00707F#32, 0x00003033#32)
  | .sra _ _ _ => (0xFE00707F#32, 0x40005033#32)
  | .srai _ _ _ => (0xFE00707F#32, 0x40005013#32)
  | .srl _ _ _ => (0xFE00707F#32, 0x00005033#32)
  | .srli _ _ _ => (0xFE00707F#32, 0x00005013#32)
  | .sub _ _ _ => (0xFE00707F#32, 0x40000033#32)
  | .xor _ _ _ => (0xFE00707F#32, 0x00004033#32)
  | .xori _ _ _ => (0x0000707F#32, 0x00004013#32)
  | .beq _ _ _ => (0x0000707F#32, 0x00000063#32)
  | .bge _ _ _ => (0x0000707F#32, 0x00005063#32)
  | .bgeu _ _ _ => (0x0000707F#32, 0x00007063#32)
  | .blt _ _ _ => (0x0000707F#32, 0x00004063#32)
  | .bltu _ _ _ => (0x0000707F#32, 0x00006063#32)
  | .bne _ _ _ => (0x0000707F#32, 0x00001063#32)
  | .jal _ _ => (0x0000007F#32, 0x0000006F#32)
  | .jalr _ _ _ => (0x0000707F#32, 0x00000067#32)
  | .lb _ _ _ => (0x0000707F#32, 0x00000003#32)
  | .lbu _ _ _ => (0x0000707F#32, 0x00004003#32)
  | .lh _ _ _ => (0x0000707F#32, 0x00001003#32)
  | .lhu _ _ _ => (0x0000707F#32, 0x00005003#32)
  | .lw _ _ _ => (0x0000707F#32, 0x00002003#32)
  | .sb _ _ _ => (0x0000707F#32, 0x00000023#32)
  | .sh _ _ _ => (0x0000707F#32, 0x00001023#32)
  | .sw _ _ _ => (0x0000707F#32, 0x00002023#32)
  | .csrrc _ _ _ => (0x0000707F#32, 0x00003073#32)
  | .csrrci _ _ _ => (0x0000707F#32, 0x00007073#32)
  | .csrrs _ _ _ => (0x0000707F#32, 0x00002073#32)
  | .csrrsi _ _ _ => (0x0000707F#32, 0x00006073#32)
  | .csrrw _ _ _ => (0x0000707F#32, 0x00001073#32)
  | .csrrwi _ _ _ => (0x0000707F#32, 0x00005073#32)
  | .ebreak => (0xFFFFFFFF#32, 0x00100073#32)
  | .ecall => (0xFFFFFFFF#32, 0x00000073#32)
  | .fence _ _ _ => (0x0000707F#32, 0x0000000F#32)
  | .fenceI _ _ _ => (0x0000707F#32, 0x0000100F#32)
  | .mul _ _ _ => (0xFE00707F#32, 0x02000033#32)
  | .mulh _ _ _ => (0xFE00707F#32, 0x02001033#32)
  | .mulhsu _ _ _ => (0xFE00707F#32, 0x02002033#32)
  | .mulhu _ _ _ => (0xFE00707F#32, 0x02003033#32)
  | .div _ _ _ => (0xFE00707F#32, 0x02004033#32)
  | .divu _ _ _ => (0xFE00707F#32, 0x02005033#32)
  | .rem _ _ _ => (0xFE00707F#32, 0x02006033#32)
  | .remu _ _ _ => (0xFE00707F#32, 0x02007033#32)
  | .flw _ _ _ => (0x0000707F#32, 0x00002007#32)
  | .fld _ _ _ => (0x0000707F#32, 0x00003007#32)
  | .fsw _ _ _ => (0x0000707F#32, 0x00002027#32)
  | .fsd _ _ _ => (0x0000707F#32, 0x00003027#32)
  | .faddS _ _ _ _ => (0xFE00007F#32, 0x00000053#32)
  | .faddD _ _ _ _ => (0xFE00007F#32, 0x02000053#32)
  | .fsubS _ _ _ _ => (0xFE00007F#32, 0x08000053#32)
  | .fsubD _ _ _ _ => (0xFE00007F#32, 0x0A000053#32)
  | .fmulS _ _ _ _ => (0xFE00007F#32, 0x10000053#32)
  | .fmulD _ _ _ _ => (0xFE00007F#32, 0x12000053#32)
  | .fdivS _ _ _ _ => (0xFE00007F#32, 0x18000053#32)
  | .fdivD _ _ _ _ => (0xFE00007F#32, 0x1A000053#32)
  | .fsqrtS _ _ _ => (0xFFF0007F#32, 0x58000053#32)
  | .fsqrtD _ _ _ => (0xFFF0007F#32, 0x5A000053#32)
  | .fmaddS _ _ _ _ _ => (0x0600007F#32, 0x00000043#32)
  | .fmaddD _ _ _ _ _ => (0x0600007F#32, 0x02000043#32)
  | .fmsubS _ _ _ _ _ => (0x0600007F#32, 0x00000047#32)
  | .fmsubD _ _ _ _ _ => (0x0600007F#32, 0x02000047#32)
  | .fnmsubS _ _ _ _ _ => (0x0600007F#32, 0x0000004B#32)
  | .fnmsubD _ _ _ _ _ => (0x0600007F#32, 0x0200004B#32)
  | .fnmaddS _ _ _ _ _ => (0x0600007F#32, 0x0000004F#32)
  | .fnmaddD _ _ _ _ _ => (0x0600007F#32, 0x0200004F#32)
  | .fsgnjS _ _ _ => (0xFE00707F#32, 0x20000053#32)
  | .fsgnjD _ _ _ => (0xFE00707F#32, 0x22000053#32)
  | .fsgnjnS _ _ _ => (0xFE00707F#32, 0x20001053#32)
  | .fsgnjnD _ _ _ => (0xFE00707F#32, 0x22001053#32)
  | .fsgnjxS _ _ _ => (0xFE00707F#32, 0x20002053#32)
  | .fsgnjxD _ _ _ => (0xFE00707F#32, 0x22002053#32)
  | .fminS _ _ _ => (0xFE00707F#32, 0x28000053#32)
  | .fminD _ _ _ => (0xFE00707F#32, 0x2A000053#32)
  | .fmaxS _ _ _ => (0xFE00707F#32, 0x28001053#32)
  | .fmaxD _ _ _ => (0xFE00707F#32, 0x2A001053#32)
  | .feqS _ _ _ => (0xFE00707F#32, 0xA0002053#32)
  | .feqD _ _ _ => (0xFE00707F#32, 0xA2002053#32)
  | .fltS _ _ _ => (0xFE00707F#32, 0xA0001053#32)
  | .fltD _ _ _ => (0xFE00707F#32, 0xA2001053#32)
  | .fleS _ _ _ => (0xFE00707F#32, 0xA0000053#32)
  | .fleD _ _ _ => (0xFE00707F#32, 0xA2000053#32)
  | .fclassS _ _ => (0xFFF0707F#32, 0xE0001053#32)
  | .fclassD _ _ => (0xFFF0707F#32, 0xE2001053#32)
  | .fmvSX _ _ => (0xFFF0707F#32, 0xF0000053#32)
  | .fmvDX _ _ => (0xFFF0707F#32, 0xF2000053#32)
  | .fmvXS _ _ => (0xFFF0707F#32, 0xE0000053#32)
  | .fmvXD _ _ => (0xFFF0707F#32, 0xE2000053#32)
  | .fcvtDS _ _ _ => (0xFFF0007F#32, 0x42000053#32)
  | .fcvtSD _ _ _ => (0xFFF0007F#32, 0x40100053#32)
  | .fcvtSW _ _ _ => (0xFFF0007F#32, 0xD0000053#32)
  | .fcvtDW _ _ _ => (0xFFF0007F#32, 0xD2000053#32)
  | .fcvtSL _ _ _ => (0xFFF0007F#32, 0xD0200053#32)
  | .fcvtDL _ _ _ => (0xFFF0007F#32, 0xD2200053#32)
  | .fcvtSWu _ _ _ => (0xFFF0007F#32, 0xD0100053#32)
  | .fcvtDWu _ _ _ => (0xFFF0007F#32, 0xD2100053#32)
  | .fcvtSLu _ _ _ => (0xFFF0007F#32, 0xD0300053#32)
  | .fcvtDLu _ _ _ => (0xFFF0007F#32, 0xD2300053#32)
  | .fcvtWS _ _ _ => (0xFFF0007F#32, 0xC0000053#32)
  | .fcvtWD _ _ _ => (0xFFF0007F#32, 0xC2000053#32)
  | .fcvtLS _ _ _ => (0xFFF0007F#32, 0xC0200053#32)
  | .fcvtLD _ _ _ => (0xFFF0007F#32, 0xC2200053#32)
  | .fcvtWuS _ _ _ => (0xFFF0007F#32, 0xC0100053#32)
  | .fcvtWuD _ _ _ => (0xFFF0007F#32, 0xC2100053#32)
  | .fcvtLuS _ _ _ => (0xFFF0007F#32, 0xC0300053#32)
  | .fcvtLuD _ _ _ => (0xFFF0007F#32, 0xC2300053#32)
  | .amoaddW _ _ _ _ _ => (0xF800707F#32, 0x0000202F#32)
  | .amoaddD _ _ _ _ _ => (0xF800707F#32, 0x0000302F#32)
  | .amoandW _ _ _ _ _ => (0xF800707F#32, 0x6000202F#32)
  | .amoandD _ _ _ _ _ => (0xF800707F#32, 0x6000302F#32)
  | .amomaxW _ _ _ _ _ => (0xF800707F#32, 0xA000202F#32)
  | .amomaxD _ _ _ _ _ => (0xF800707F#32, 0xA000302F#32)
  | .amomaxuW _ _ _ _ _ => (0xF800707F#32, 0xE000202F#32)
  | .amomaxuD _ _ _ _ _ => (0xF800707F#32, 0xE000302F#32)
  | .amominW _ _ _ _ _ => (0xF800707F#32, 0x8000202F#32)
  | .amominD _ _ _ _ _ => (0xF800707F#32, 0x8000302F#32)
  | .amominuW _ _ _ _ _ => (0xF800707F#32, 0xC000202F#32)
  | .amominuD _ _ _ _ _ => (0xF800707F#32, 0xC000302F#32)
  | .amoorW _ _ _ _ _ => (0xF800707F#32, 0x4000202F#32)
  | .amoorD _ _ _ _ _ => (0xF800707F#32, 0x4000302F#32)
  | .amoswapW _ _ _ _ _ => (0xF800707F#32, 0x0800202F#32)
  | .amoswapD _ _ _ _ _ => (0xF800707F#32, 0x0800302F#32)
  | .amoxorW _ _ _ _ _ => (0xF800707F#32, 0x2000202F#32)
  | .amoxorD _ _ _ _ _ => (0xF800707F#32, 0x2000302F#32)
  | .lrW _ _ _ _ => (0xF9F0707F#32, 0x1000202F#32)
  | .lrD _ _ _ _ => (0xF9F0707F#32, 0x1000302F#32)
  | .scW _ _ _ _ _ => (0xF800707F#32, 0x1800202F#32)
  | .scD _ _ _ _ _ => (0xF800707F#32, 0x1800302F#32)

end Sys2Proof
end

