-- ==== Sys2Proof/Config.lean ====
section
/-! DEFINITION. What the spec leaves to the implementation: the parameters of 00_scope.md R7 as data that State
carries (so that every claim ranges over all of them), and the free values, which are opaque constants without a body. -/

namespace Sys2Proof

/-- The five rounding modes (10_state.md R35; 45_fd_float.md R313). -/
inductive RoundingMode where
  /-- 000: to nearest, ties to even. -/
  | nearestEven
  /-- 001: toward zero. -/
  | towardZero
  /-- 010: toward minus infinity. -/
  | down
  /-- 011: toward plus infinity. -/
  | up
  /-- 100: to nearest, ties away from zero. -/
  | nearestAway
  deriving DecidableEq, Repr, Inhabited

/-- The functions of `FP_NUMERICS` at one precision of `w` bits: each takes the effective rounding mode where the
operation rounds and the operand patterns, and gives the result pattern and the raised flags (45_fd_float.md R316). -/
structure FpOps (w : Nat) where
  add : RoundingMode → BitVec w → BitVec w → BitVec w × FpFlags
  sub : RoundingMode → BitVec w → BitVec w → BitVec w × FpFlags
  mul : RoundingMode → BitVec w → BitVec w → BitVec w × FpFlags
  div : RoundingMode → BitVec w → BitVec w → BitVec w × FpFlags
  sqrt : RoundingMode → BitVec w → BitVec w × FpFlags
  /-- `fma a b c` is `a x b + c` with one rounding. -/
  fma : RoundingMode → BitVec w → BitVec w → BitVec w → BitVec w × FpFlags
  min : BitVec w → BitVec w → BitVec w × FpFlags
  max : BitVec w → BitVec w → BitVec w × FpFlags
  eq : BitVec w → BitVec w → BitVec 1 × FpFlags
  lt : BitVec w → BitVec w → BitVec 1 × FpFlags
  le : BitVec w → BitVec w → BitVec 1 × FpFlags
  /-- The 10-bit class mask of R319. -/
  classify : BitVec w → BitVec 10
  /-- From a signed 32-bit integer. -/
  ofInt : RoundingMode → Word → BitVec w × FpFlags
  /-- From an unsigned 32-bit integer. -/
  ofUInt : RoundingMode → Word → BitVec w × FpFlags
  /-- To a signed 32-bit integer. -/
  toInt : RoundingMode → BitVec w → Word × FpFlags
  /-- To an unsigned 32-bit integer. -/
  toUInt : RoundingMode → BitVec w → Word × FpFlags
  deriving Inhabited

/-- The record `FP_NUMERICS` (45_fd_float.md R316): both precisions and the two conversions between them. -/
structure FpNumerics where
  single : FpOps 32
  double : FpOps 64
  /-- `f2f(32, 64)`: fcvt.d.s. -/
  widen : RoundingMode → BitVec 32 → BitVec 64 × FpFlags
  /-- `f2f(64, 32)`: fcvt.s.d. -/
  narrow : RoundingMode → BitVec 64 → BitVec 32 × FpFlags
  deriving Inhabited

/-- The OPEN parameter `FP_NUMERICS` as plain data: the intended IEEE 754-2008 instance, or one of the uninterpreted
records `Config.fpOther` (45_fd_float.md R316, 92_eei_decisions.md D26; DESIGN CHOICE, log 9, safe). -/
inductive FpChoice where
  | intended
  | other (n : Nat)
  deriving DecidableEq, Repr

/-- The OPEN parameter `MISALIGNED_DATA` (20_memory.md R55). -/
inductive Misaligned where
  | fault
  | support
  deriving DecidableEq, Repr

/-- One region of `MEM_MAP`: `size` bytes from `base` up, with the R, W and X marks (20_memory.md R50). -/
structure Region where
  base : Word
  size : Nat
  r : Bool
  w : Bool
  x : Bool
  deriving DecidableEq, Repr

/-- The parameters of the step relation (00_scope.md R7). They stand in State as data; no step changes them. -/
structure Params where
  /-- `EXT_M` -/
  extM : Bool
  /-- `EXT_A` -/
  extA : Bool
  /-- `EXT_F` -/
  extF : Bool
  /-- `EXT_D`; it needs `EXT_F` (00_scope.md R3). -/
  extD : Bool
  /-- `MISALIGNED_DATA` -/
  misaligned : Misaligned
  /-- `MEM_MAP` -/
  memMap : List Region
  /-- `RESERVATION_GRANULE`, in bytes -/
  granule : Nat
  /-- `FP_NUMERICS` -/
  fpNumerics : FpChoice
  deriving DecidableEq, Repr

/-- FREE VALUE: what the `n`-th read of a volatile CSR returns, "a value drawn freely at each read" (10_state.md R38,
93_implementation_defined.md U3; log 8, safe). -/
opaque Config.csrDraw : Nat → Word

/-- FREE VALUE: whether tininess is detected before rounding (true) or after (false); the spec names the UF flag
(45_fd_float.md R314) and not which (DESIGN CHOICE, log 10, safe). -/
opaque Config.tinyBeforeRounding : Bool

/-- FREE VALUE: the uninterpreted `FP_NUMERICS` records, of which the machine assumes only that they are functions of
their arguments (45_fd_float.md R316; log 9, safe). -/
opaque Config.fpOther : Nat → FpNumerics

end Sys2Proof
end

