-- ==== Sys2Proof/Machine/Defaults.lean ====
section
/-! DEFINITION. The values the machine has when a launch does not say otherwise: the defaults of 00_scope.md R7, the start
values of 10_state.md R44, and the values the model names where the spec says "unspecified" (logs 2 to 5). -/

namespace Sys2Proof.Machine

/-- `TEXT_BASE`, default 0x0040_0000 (00_scope.md R7, 20_memory.md R63). -/
def defaultTextBase : Word := 0x00400000#32

/-- `DATA_BASE`, default 0x1000_0000 (00_scope.md R7, 20_memory.md R63). -/
def defaultDataBase : Word := 0x10000000#32

/-- `RESET_PC`, default `TEXT_BASE` (00_scope.md R7, 10_state.md R44). -/
def defaultResetPc : Word := defaultTextBase

/-- `STACK_TOP`, which has no default: the value of 95_test_vectors.md section 3.3, a multiple of 16 inside the Stack
region (DESIGN CHOICE, log 2, unsafe). -/
def defaultStackTop : Word := 0x7FFFFFF0#32

/-- `MEM_MAP`, which has no default: the map of 95_test_vectors.md's conventions, Text R X, Data R W, Stack R W
(DESIGN CHOICE, log 4, unsafe). -/
def defaultMemMap : List Region :=
  [{ base := defaultTextBase, size := 0x1000, r := true, w := false, x := true },
   { base := defaultDataBase, size := 0x1000, r := true, w := true, x := false },
   { base := 0x7FFFF000#32, size := 0x1000, r := true, w := true, x := false }]

/-- The parameters at their defaults (00_scope.md R7): no optional group, misaligned data faults, granule 4, the intended
floating-point arithmetic. -/
def defaultParams : Params :=
  { extM := false, extA := false, extF := false, extD := false, misaligned := .fault, memMap := defaultMemMap,
    granule := 4, fpNumerics := .intended }

/-- The x registers after reset: x0 = 0 and x2 = `STACK_TOP` (10_state.md R44); the others are "unspecified", and the
model names 0 (DESIGN CHOICE, log 2, unsafe). -/
def defaultX : Vector Word 32 := (Vector.replicate 32 0#32).set 2 defaultStackTop

/-- The f registers after reset are "unspecified" (10_state.md R44): the model names 0 (DESIGN CHOICE, log 3, unsafe). -/
def defaultF : Vector DWord 32 := Vector.replicate 32 0#64

/-- What a byte of memory that nothing has written reads as: 10_state.md R44 says "unspecified" (DESIGN CHOICE, log 5,
unsafe). -/
def unwrittenByte : Byte := 0#8

end Sys2Proof.Machine
end

