-- ==== Sys2Proof/Machine/State.lean ====
section
/-! DEFINITION. The state of the machine (10_state.md R45), the ways a step can stop, and the state after reset (R44). -/

namespace Sys2Proof.Machine

/-- The names of the traps (60_exceptions.md R401). -/
inductive Cause where
  | instructionAddressMisaligned
  | instructionAccessFault
  | illegalInstruction
  | breakpoint
  | loadAddressMisaligned
  | loadAccessFault
  | storeAddressMisaligned
  | storeAccessFault
  | environmentCall
  deriving DecidableEq, Repr

/-- A trap with its value: the `E` and `info` of the outcome `Trap(E, info, s')` (60_exceptions.md R402, R404). -/
structure Trap where
  cause : Cause
  info : Word
  deriving DecidableEq, Repr

/-- A member of `CSR_SET` with its current value (10_state.md R37). -/
structure Csr where
  value : Word
  writable : Bool
  wmask : Word
  volatile : Bool
  deriving DecidableEq, Repr

/-- Memory as a list of (address, byte), addresses strictly rising, no entry equal to `unwrittenByte` (`Memory.wf`). -/
abbrev Memory := List Host.Cell

/-- The whole state (10_state.md R45). -/
structure State where
  /-- The integer registers x0 to x31 (R20); x0 is read and written only through `State.readX` and `State.writeX`. -/
  x : Vector Word 32
  /-- The program counter (R25). -/
  pc : Word
  /-- The floating-point registers (R31) in 64-bit slots; when FLEN is 32 the upper half of a slot is not used and is
  written as zero (log 15). -/
  f : Vector DWord 32
  /-- `fcsr` (R35): bits 4:0 the flags, bits 7:5 `frm`, bits 31:8 read zero. -/
  fcsr : Word
  /-- The other members of `CSR_SET` (R37), by number. -/
  csrs : List (CsrIdx × Csr)
  /-- The bytes of memory (R40). -/
  mem : Memory
  /-- The stale-code set (R42), strictly rising. -/
  stale : List Nat
  /-- The reservation: the granule address of the last lr (R41). -/
  reservation : Option Word
  /-- The parameters of 00_scope.md R7; no step changes them. -/
  params : Params
  /-- The MODEL's own: how many volatile CSR reads have happened (log 8). -/
  draws : Nat
  /-- The MODEL's own: the trap that ended the run (60_exceptions.md R404; log 1). -/
  trap : Option Trap
  deriving DecidableEq, Repr

/-- Why the machine stops. -/
inductive Fault where
  /-- `ModelFault StaleFetch(pc)` with the unchanged state (20_memory.md R62, 60_exceptions.md R416): raised by `step`
  when the fetch touches a byte stored to since the last fence.i. Safe: the spec's own fault, where hardware may run the
  old or the new instruction. -/
  | staleFetch (pc : Word) (s : State)
  /-- The run has ended with this trap (60_exceptions.md R404, R417: the outcome is terminal): raised by `step` on a
  state in which a trap has been taken. Safe: the spec gives such a state no further step. -/
  | ended (t : Trap)
  deriving DecidableEq, Repr

/-- Why a configuration or an instruction is refused. -/
inductive Refusal where
  /-- An instruction without a meaning; raised by `exec` alone, for no instruction. Safe. -/
  | notModelled (mnemonic : String)
  /-- `HARTS` other than 1 (60_exceptions.md R413, R416): raised by `launch`. Safe. -/
  | unsupportedHarts (n : Nat)
  /-- `XLEN` other than 32 (60_exceptions.md R416): raised by `launch`. Safe. -/
  | unsupportedXlen (n : Nat)
  /-- A device region in `MEM_MAP` (60_exceptions.md R412, R416): raised by `launch`. Safe. -/
  | deviceRegion (base : Word)
  deriving DecidableEq, Repr

/-- The answer of a meaning or of a step. -/
abbrev Result := Host.Outcome State Fault Refusal

/-- The machine right after reset (10_state.md R44, 70_reset_and_hazards.md R440, R441): every parameter at its default,
memory with nothing listed. -/
def State.reset : State :=
  { x := defaultX
    pc := defaultResetPc
    f := defaultF
    fcsr := 0#32
    csrs := []
    mem := []
    stale := []
    reservation := none
    params := defaultParams
    draws := 0
    trap := none }

end Sys2Proof.Machine
end

