-- ==== Sys2Proof/Machine/Flags.lean ====
section
/-! DEFINITION. The flags of the machine. There are no condition codes (10_state.md R30); the only flags are the five
accrued floating-point flags in `fcsr`, beside the dynamic rounding mode (R35, 45_fd_float.md R314). -/

namespace Sys2Proof.Machine

/-- What `fcsr` reads as: bits 31 to 8 read zero (10_state.md R35). -/
def State.readFcsr (s : State) : Word := s.fcsr &&& 0x000000FF#32

/-- The accrued flags, bits 4 to 0 of `fcsr` (R35). -/
def State.fflags (s : State) : FpFlags := s.fcsr.extractLsb' 0 5

/-- The dynamic rounding mode, bits 7 to 5 of `fcsr` (R35). -/
def State.frm (s : State) : BitVec 3 := s.fcsr.extractLsb' 5 3

/-- `fcsr` with the given rounding mode and flags; bits 31 to 8 ignore writes (R35). -/
def State.writeFcsr (s : State) (frm : BitVec 3) (fl : FpFlags) : State := { s with fcsr := 0#24 ++ frm ++ fl }

/-- `fflags <- fflags | raised` (45_fd_float.md R314). -/
def State.accrue (s : State) (raised : FpFlags) : State := s.writeFcsr s.frm (s.fflags ||| raised)

end Sys2Proof.Machine
end

