-- ==== Sys2Proof/Machine/Operands.lean ====
section
/-! DEFINITION. The operand forms: registers, immediates, effective addresses and branch targets, rounding modes, single
values in the f registers. -/

namespace Sys2Proof.Machine

/-! ### Integer registers (10_state.md R20, R22) -/

/-- `x[i]`: x0 reads as 0 in every state (R22). -/
def State.readX (s : State) (r : RegIdx) : Word := if r = 0#5 then 0#32 else s.x.get r.toFin

/-- `x[i] <- v`: a write to x0 is discarded (R22). -/
def State.writeX (s : State) (r : RegIdx) (v : Word) : State :=
  if r = 0#5 then s else { s with x := s.x.set r.toFin v }

/-! ### Immediates (30_encoding.md R83 to R90) -/

/-- `imm_I` and `imm_S`: the 12-bit field sign-extended (R84, R85). -/
def sext12 (imm : BitVec 12) : Word := imm.signExtend 32

/-- `imm_B`: the 13-bit even offset sign-extended (R86). -/
def sext13 (off : BitVec 13) : Word := off.signExtend 32

/-- `imm_J`: the 21-bit even offset sign-extended (R88). -/
def sext21 (off : BitVec 21) : Word := off.signExtend 32

/-- `imm_U = {inst[31:12], 12'b0}` (R87). -/
def upper20 (imm : BitVec 20) : Word := imm ++ 0#12

/-- `uimm`: zero-extended (R90). -/
def zext5 (uimm : BitVec 5) : Word := uimm.setWidth 32

/-! ### Addresses and targets -/

/-- The effective address of a load or store, `x[rs1] + imm` modulo 2^32 (42_rv32i_loadstore.md R170). -/
def State.effAddr (s : State) (rs1 : RegIdx) (imm : BitVec 12) : Word := s.readX rs1 + sext12 imm

/-- The target of a taken branch, `pc + imm_B` (41_rv32i_control.md R151). -/
def State.branchTarget (s : State) (off : BitVec 13) : Word := s.pc + sext13 off

/-- The target of jal, `pc + imm_J` (R158). -/
def State.jalTarget (s : State) (off : BitVec 21) : Word := s.pc + sext21 off

/-- The target of jalr, `(x[rs1] + imm_I) & 0xFFFFFFFE` (R159). -/
def State.jalrTarget (s : State) (rs1 : RegIdx) (imm : BitVec 12) : Word :=
  (s.readX rs1 + sext12 imm) &&& 0xFFFFFFFE#32

/-! ### Optional groups (00_scope.md R3, 30_encoding.md R104) -/

/-- The `.s` rows are admitted (30_encoding.md R102). -/
def hasF (p : Params) : Bool := p.extF

/-- The `.d` rows are admitted, and FLEN is 64: `EXT_D` needs `EXT_F` (00_scope.md R3, 10_state.md R33; log 17). -/
def hasD (p : Params) : Bool := p.extF && p.extD

/-! ### Floating-point registers (10_state.md R31, R33, R34; 45_fd_float.md R312) -/

/-- The whole register, as a double (FLEN = 64). -/
def State.readD (s : State) (r : RegIdx) : DWord := s.f.get r.toFin

/-- The low 32 bits, "copied without looking at the box" (R242, R282). -/
def State.readLow (s : State) (r : RegIdx) : Word := (s.readD r).setWidth 32

/-- The canonical single NaN (R312, R315). -/
def canonicalSingle : Word := 0x7FC00000#32

/-- `unbox(f[i])`: with FLEN = 64 a value whose upper half is not all ones reads as the canonical NaN (R312). -/
def State.readS (s : State) (r : RegIdx) : Word :=
  if hasD s.params && (s.readD r).extractLsb' 32 32 != 0xFFFFFFFF#32 then canonicalSingle else s.readLow r

/-- `f[i] <- v` for a double. -/
def State.writeD (s : State) (r : RegIdx) (v : DWord) : State := { s with f := s.f.set r.toFin v }

/-- `box(v)` in the register's slot: the upper half is all ones when FLEN = 64 (R312), and unused, zero, when FLEN = 32
(log 15). -/
def boxS (p : Params) (v : Word) : DWord := if hasD p then 0xFFFFFFFF#32 ++ v else 0#32 ++ v

/-- `f[i] <- box(v)` (R312). -/
def State.writeS (s : State) (r : RegIdx) (v : Word) : State := s.writeD r (boxS s.params v)

/-- The sign bit of a single flipped: the `neg` of R256. -/
def negS (v : Word) : Word := v ^^^ 0x80000000#32

/-- The sign bit of a double flipped. -/
def negD (v : DWord) : DWord := v ^^^ 0x8000000000000000#64

/-! ### Rounding modes (45_fd_float.md R313) -/

/-- The mode a 3-bit value names; 101, 110 and 111 name none. -/
def modeOf (v : BitVec 3) : Option RoundingMode :=
  match v with
  | 0b000#3 => some .nearestEven
  | 0b001#3 => some .towardZero
  | 0b010#3 => some .down
  | 0b011#3 => some .up
  | 0b100#3 => some .nearestAway
  | _ => none

/-- The effective mode: `rm` itself, or `frm` when `rm` is 111; none is the IllegalInstruction of R313. -/
def State.effectiveMode (s : State) (rm : BitVec 3) : Option RoundingMode :=
  if rm = 0b111#3 then modeOf s.frm else modeOf rm

end Sys2Proof.Machine
end

