-- ==== Sys2Proof/Machine/Ops.lean ====
section
/-! DEFINITION. The named operations over the state: memory, the stale-code set, the reservation, the checks of an
access, taking a trap, the control and status registers. -/

namespace Sys2Proof.Machine

/-! ### Memory as a list (20_memory.md R50) -/

/-- The byte at an address; an unlisted one reads as `unwrittenByte` (log 5). -/
def Memory.read (m : Memory) (a : Nat) : Byte :=
  match m with
  | [] => unwrittenByte
  | (k, v) :: rest => if k = a then v else Memory.read rest a

/-- The list without the entry of an address. -/
def Memory.erase (m : Memory) (a : Nat) : Memory := m.filter (fun c => c.1 != a)

/-- A new entry in its place, before the first greater address. -/
def Memory.insert (m : Memory) (a : Nat) (b : Byte) : Memory :=
  match m with
  | [] => [(a, b)]
  | (k, v) :: rest => if a < k then (a, b) :: (k, v) :: rest else (k, v) :: Memory.insert rest a b

/-- The byte at an address set; writing what an unlisted address reads as removes the entry. -/
def Memory.write (m : Memory) (a : Nat) (b : Byte) : Memory :=
  if b = unwrittenByte then Memory.erase m a else Memory.insert (Memory.erase m a) a b

/-- The canonical form: addresses strictly rising and below 2^32, no entry equal to what an unlisted address reads as. -/
abbrev Memory.wf (m : Memory) : Prop :=
  m.Pairwise (fun c d => c.1 < d.1) ∧ ∀ c ∈ m, c.1 < 2 ^ 32 ∧ c.2 ≠ unwrittenByte

/-! ### The stale-code set as a strictly rising list (10_state.md R42) -/

/-- An address joins the set. -/
def staleInsert (l : List Nat) (a : Nat) : List Nat :=
  match l with
  | [] => [a]
  | k :: rest => if a < k then a :: k :: rest else if a = k then k :: rest else k :: staleInsert rest a

/-- The canonical form of the set. -/
abbrev staleWf (l : List Nat) : Prop := l.Pairwise (· < ·) ∧ ∀ a ∈ l, a < 2 ^ 32

/-! ### Reading and writing bytes (20_memory.md R52) -/

/-- The byte at an address. -/
def State.byte (s : State) (a : Word) : Byte := s.mem.read a.toNat

/-- `MemRead(a, 2)`: the byte at `a` is bits 7 to 0; addresses wrap modulo 2^32. -/
def State.read16 (s : State) (a : Word) : Half := s.byte (a + 1#32) ++ s.byte a

/-- `MemRead(a, 4)`. -/
def State.read32 (s : State) (a : Word) : Word := s.byte (a + 3#32) ++ s.byte (a + 2#32) ++ s.byte (a + 1#32) ++ s.byte a

/-- `MemRead(a, 8)`, the low word at `a` (45_fd_float.md R241). -/
def State.read64 (s : State) (a : Word) : DWord := s.read32 (a + 4#32) ++ s.read32 a

/-- The bytes of a halfword, the lowest address first. -/
def bytes16 (v : Half) : List Byte := [v.extractLsb' 0 8, v.extractLsb' 8 8]

/-- The bytes of a word, the lowest address first. -/
def bytes32 (v : Word) : List Byte := [v.extractLsb' 0 8, v.extractLsb' 8 8, v.extractLsb' 16 8, v.extractLsb' 24 8]

/-- The bytes of a doubleword, the lowest address first. -/
def bytes64 (v : DWord) : List Byte := bytes32 (v.extractLsb' 0 32) ++ bytes32 (v.extractLsb' 32 32)

/-- An address rounded down to the reservation granule (10_state.md R41). -/
def granuleBase (p : Params) (a : Word) : Word := a - BitVec.ofNat 32 (a.toNat % p.granule)

/-- One byte stored: it joins `stale` (20_memory.md R62) and clears a reservation of its granule (46_a_atomic.md R354). -/
def State.storeByte (s : State) (a : Word) (b : Byte) : State :=
  { s with
    mem := s.mem.write a.toNat b
    stale := staleInsert s.stale a.toNat
    reservation := if s.reservation = some (granuleBase s.params a) then none else s.reservation }

/-- `MemWrite(a, n, v)` on the bytes of `v`, the lowest address first; addresses wrap modulo 2^32 (R52, R55). -/
def State.store (s : State) (a : Word) (bs : List Byte) : State :=
  match bs with
  | [] => s
  | b :: rest => (s.storeByte a b).store (a + 1#32) rest

/-! ### The checks of an access (20_memory.md R55, R58) -/

/-- Is the address one of the region's `size` bytes from `base` up? -/
def regionHas (r : Region) (a : Word) : Bool := decide ((a - r.base).toNat < r.size)

/-- May the byte be read? -/
def mayRead (p : Params) (a : Word) : Bool := p.memMap.any fun r => r.r && regionHas r a
/-- May the byte be written? -/
def mayWrite (p : Params) (a : Word) : Bool := p.memMap.any fun r => r.w && regionHas r a
/-- May the byte be fetched? -/
def mayFetch (p : Params) (a : Word) : Bool := p.memMap.any fun r => r.x && regionHas r a

/-- The `n` byte addresses from `a` up, modulo 2^32. -/
def span (a : Word) (n : Nat) : List Word := (List.range n).map fun k => a + BitVec.ofNat 32 k

/-- An access of `n` bytes at `a` is aligned when `a mod n = 0` (R55). -/
def aligned (a : Word) (n : Nat) : Bool := a.toNat % n == 0

/-- Every byte exists with R (R58). -/
def State.canRead (s : State) (a : Word) (n : Nat) : Bool := (span a n).all (mayRead s.params)
/-- Every byte exists with W (R58). -/
def State.canWrite (s : State) (a : Word) (n : Nat) : Bool := (span a n).all (mayWrite s.params)
/-- Every byte exists with X (R58). -/
def State.canFetch (s : State) (a : Word) (n : Nat) : Bool := (span a n).all (mayFetch s.params)

/-- What `MISALIGNED_DATA` makes of an access: misaligned and not supported (R55). -/
def State.misalignedFaults (s : State) (a : Word) (n : Nat) : Bool :=
  !aligned a n && s.params.misaligned == .fault

/-- The checks of a load of `n` bytes: alignment, then existence and R (42_rv32i_loadstore.md R171). -/
def State.loadCheck (s : State) (a : Word) (n : Nat) : Option Cause :=
  if s.misalignedFaults a n then some .loadAddressMisaligned
  else if s.canRead a n then none else some .loadAccessFault

/-- The checks of a store of `n` bytes: alignment, then existence and W (R180). -/
def State.storeCheck (s : State) (a : Word) (n : Nat) : Option Cause :=
  if s.misalignedFaults a n then some .storeAddressMisaligned
  else if s.canWrite a n then none else some .storeAccessFault

/-- The checks of lr.w: alignment whatever `MISALIGNED_DATA`, then R (46_a_atomic.md R331, R350). -/
def State.lrCheck (s : State) (a : Word) : Option Cause :=
  if !aligned a 4 then some .loadAddressMisaligned
  else if s.canRead a 4 then none else some .loadAccessFault

/-- The checks of sc.w: alignment, then W (R331, R352). -/
def State.scCheck (s : State) (a : Word) : Option Cause :=
  if !aligned a 4 then some .storeAddressMisaligned
  else if s.canWrite a 4 then none else some .storeAccessFault

/-- The checks of an amo: alignment, then both R and W, reported as a store fault (R330, R331). -/
def State.amoCheck (s : State) (a : Word) : Option Cause :=
  if !aligned a 4 then some .storeAddressMisaligned
  else if s.canRead a 4 && s.canWrite a 4 then none else some .storeAccessFault

/-! ### The program counter (10_state.md R26, R28) -/

/-- `pc <- pc + 4`, modulo 2^32. -/
def State.advance (s : State) : State := { s with pc := s.pc + 4#32 }

/-- `pc <- t`. -/
def State.setPc (s : State) (t : Word) : State := { s with pc := t }

/-! ### Taking a trap (60_exceptions.md R404)

There is no return from a trap: the card has none and the outcome is terminal (R406, R417). -/

/-- The state `s'` of the outcome `Trap(E, info, s')`: the state before the instruction with `reservation` none, and the
model's record of `(E, info)` (R404; log 1). -/
def State.takeTrap (s : State) (e : Cause) (info : Word) : State :=
  { s with reservation := none, trap := some { cause := e, info := info } }

/-- `raise E(info)` (00_scope.md R10, 60_exceptions.md R404). -/
def State.raise (s : State) (e : Cause) (info : Word) : Result := .next (s.takeTrap e info)

/-- `raise IllegalInstruction(inst)` by a meaning: the word of the instruction is `encode i` (30_encoding.md R103; log 14). -/
def State.illegal (s : State) (i : Instr) : Result := s.raise .illegalInstruction (encode i)

/-- The meaning `k` where the row is admitted, else IllegalInstruction (30_encoding.md R103, R104). -/
def State.whenAdmitted (s : State) (admitted : Bool) (i : Instr) (k : Result) : Result :=
  if admitted then k else s.illegal i

/-- The meaning `k` where the checks of an access at `a` pass, else the exception they name, with `a` (R402). -/
def State.whenPasses (s : State) (check : Option Cause) (a : Word) (k : Result) : Result :=
  match check with
  | some e => s.raise e a
  | none => k

/-! ### Control and status registers (10_state.md R35 to R38, 43_rv32i_system.md R190) -/

/-- The member of `CSR_SET` with a number, outside the three windows on `fcsr`. -/
def csrLookup (l : List (CsrIdx × Csr)) (c : CsrIdx) : Option Csr :=
  match l with
  | [] => none
  | (k, r) :: rest => if k = c then some r else csrLookup rest c

/-- The value of that member set. -/
def csrUpdate (l : List (CsrIdx × Csr)) (c : CsrIdx) (v : Word) : List (CsrIdx × Csr) :=
  match l with
  | [] => []
  | (k, r) :: rest => if k = c then (k, { r with value := v }) :: rest else (k, r) :: csrUpdate rest c v

/-- `fflags` (R35) -/
def csrFflags : CsrIdx := 0x001#12
/-- `frm` (R35) -/
def csrFrm : CsrIdx := 0x002#12
/-- `fcsr` (R35) -/
def csrFcsr : CsrIdx := 0x003#12

/-- The record of a CSR, or none where it is not in `CSR_SET` (R37). When `EXT_F`, `fflags`, `frm` and `fcsr` are
members: windows on `fcsr` whose other bits read zero and ignore writes (R35; log 7). -/
def State.csr (s : State) (c : CsrIdx) : Option Csr :=
  if s.params.extF && c == csrFflags then
    some { value := s.fflags.setWidth 32, writable := true, wmask := 0x1F#32, volatile := false }
  else if s.params.extF && c == csrFrm then
    some { value := s.frm.setWidth 32, writable := true, wmask := 0x7#32, volatile := false }
  else if s.params.extF && c == csrFcsr then
    some { value := s.readFcsr, writable := true, wmask := 0xFF#32, volatile := false }
  else csrLookup s.csrs c

/-- The value of a CSR set to `v`, a value already under its write mask. -/
def State.setCsr (s : State) (c : CsrIdx) (v : Word) : State :=
  if s.params.extF && c == csrFflags then s.writeFcsr s.frm (v.extractLsb' 0 5)
  else if s.params.extF && c == csrFrm then s.writeFcsr (v.extractLsb' 0 3) s.fflags
  else if s.params.extF && c == csrFcsr then s.writeFcsr (v.extractLsb' 5 3) (v.extractLsb' 0 5)
  else { s with csrs := csrUpdate s.csrs c v }

/-- `value <- (value & ~wmask) | (v & wmask)` (R38). -/
def maskedWrite (r : Csr) (v : Word) : Word := (r.value &&& ~~~r.wmask) ||| (v &&& r.wmask)

/-- What a read of a CSR gives: its value, or a free value where it is volatile (R38; log 8). -/
def State.csrValue (s : State) (r : Csr) : Word := if r.volatile then Config.csrDraw s.draws else r.value

/-- The draw of a volatile CSR is used up by the read (log 8). -/
def State.afterRead (s : State) (r : Csr) (reads : Bool) : State :=
  if r.volatile && reads then { s with draws := s.draws + 1 } else s

/-- The six steps of a CSR instruction (43_rv32i_system.md R190): existence, write permission, the old value, the new
value `new old` under the write mask when it `writes`, and `x[rd] <- old`. `reads` is false where step (4) is skipped. -/
def State.csrAccess (s : State) (i : Instr) (rd : RegIdx) (c : CsrIdx) (writes reads : Bool) (new : Word → Word) :
    Result :=
  match s.csr c with
  | none => s.illegal i
  | some r =>
    if writes && !r.writable then s.illegal i
    else
      let old := s.csrValue r
      let s1 := s.afterRead r reads
      let s2 := if writes then s1.setCsr c (maskedWrite r (new old)) else s1
      .next (s2.writeX rd old).advance

end Sys2Proof.Machine
end

