-- ==== Sys2Proof/Machine/Integer.lean ====
section
/-! DEFINITION. The RV32I integer computational instructions (40_rv32i_integer.md R120 to R143). None touches memory or
`pc` beyond `pc + 4`, and none can raise. -/

namespace Sys2Proof.Machine

/-- `x[rd] <- v; pc <- pc + 4`. -/
def State.finishX (s : State) (rd : RegIdx) (v : Word) : Result := .next (s.writeX rd v).advance

/-- The amount of a register shift: `x[rs2][4:0]` (R122). -/
def shiftAmount (v : Word) : Nat := (v.extractLsb' 0 5).toNat

/-- A comparison's result: a 32-bit 1 or 0 (R133). -/
def boolWord (b : Bool) : Word := if b then 1#32 else 0#32

/-- R123 -/
def execAdd (rd rs1 rs2 : RegIdx) (s : State) : Result := s.finishX rd (s.readX rs1 + s.readX rs2)
/-- R124 -/
def execAddi (rd rs1 : RegIdx) (imm : BitVec 12) (s : State) : Result := s.finishX rd (s.readX rs1 + sext12 imm)
/-- R125 -/
def execAnd (rd rs1 rs2 : RegIdx) (s : State) : Result := s.finishX rd (s.readX rs1 &&& s.readX rs2)
/-- R126 -/
def execAndi (rd rs1 : RegIdx) (imm : BitVec 12) (s : State) : Result := s.finishX rd (s.readX rs1 &&& sext12 imm)
/-- R127: `pc` is the address of the auipc itself. -/
def execAuipc (rd : RegIdx) (imm : BitVec 20) (s : State) : Result := s.finishX rd (s.pc + upper20 imm)
/-- R128 -/
def execLui (rd : RegIdx) (imm : BitVec 20) (s : State) : Result := s.finishX rd (upper20 imm)
/-- R129 -/
def execOr (rd rs1 rs2 : RegIdx) (s : State) : Result := s.finishX rd (s.readX rs1 ||| s.readX rs2)
/-- R130 -/
def execOri (rd rs1 : RegIdx) (imm : BitVec 12) (s : State) : Result := s.finishX rd (s.readX rs1 ||| sext12 imm)
/-- R131 -/
def execSll (rd rs1 rs2 : RegIdx) (s : State) : Result := s.finishX rd (s.readX rs1 <<< shiftAmount (s.readX rs2))
/-- R132 -/
def execSlli (rd rs1 : RegIdx) (shamt : BitVec 5) (s : State) : Result := s.finishX rd (s.readX rs1 <<< shamt.toNat)
/-- R133 -/
def execSlt (rd rs1 rs2 : RegIdx) (s : State) : Result := s.finishX rd (boolWord ((s.readX rs1).slt (s.readX rs2)))
/-- R134 -/
def execSlti (rd rs1 : RegIdx) (imm : BitVec 12) (s : State) : Result :=
  s.finishX rd (boolWord ((s.readX rs1).slt (sext12 imm)))
/-- R135: the immediate is sign-extended first, then compared as unsigned. -/
def execSltiu (rd rs1 : RegIdx) (imm : BitVec 12) (s : State) : Result :=
  s.finishX rd (boolWord ((s.readX rs1).ult (sext12 imm)))
/-- R136 -/
def execSltu (rd rs1 rs2 : RegIdx) (s : State) : Result := s.finishX rd (boolWord ((s.readX rs1).ult (s.readX rs2)))
/-- R137 -/
def execSra (rd rs1 rs2 : RegIdx) (s : State) : Result :=
  s.finishX rd ((s.readX rs1).sshiftRight (shiftAmount (s.readX rs2)))
/-- R138 -/
def execSrai (rd rs1 : RegIdx) (shamt : BitVec 5) (s : State) : Result :=
  s.finishX rd ((s.readX rs1).sshiftRight shamt.toNat)
/-- R139 -/
def execSrl (rd rs1 rs2 : RegIdx) (s : State) : Result := s.finishX rd (s.readX rs1 >>> shiftAmount (s.readX rs2))
/-- R140 -/
def execSrli (rd rs1 : RegIdx) (shamt : BitVec 5) (s : State) : Result := s.finishX rd (s.readX rs1 >>> shamt.toNat)
/-- R141 -/
def execSub (rd rs1 rs2 : RegIdx) (s : State) : Result := s.finishX rd (s.readX rs1 - s.readX rs2)
/-- R142 -/
def execXor (rd rs1 rs2 : RegIdx) (s : State) : Result := s.finishX rd (s.readX rs1 ^^^ s.readX rs2)
/-- R143 -/
def execXori (rd rs1 : RegIdx) (imm : BitVec 12) (s : State) : Result := s.finishX rd (s.readX rs1 ^^^ sext12 imm)

end Sys2Proof.Machine
end

