-- ==== Sys2Proof/Machine/Atomic.lean ====
section
/-! DEFINITION. The A group (46_a_atomic.md R330 to R356). The `.w` rows are admitted when `EXT_A`; the `.d` rows never are.
The bits aq and rl have no effect (R356). -/

namespace Sys2Proof.Machine

/-- A read-modify-write (R330): the old word `t` at `a = x[rs1]` goes to `x[rd]` and `op t x[rs2]` to memory, also where
it equals `t`. -/
def State.amo (s : State) (i : Instr) (rd rs1 rs2 : RegIdx) (op : Word → Word → Word) : Result :=
  let a := s.readX rs1
  let t := s.read32 a
  s.whenAdmitted s.params.extA i
    (s.whenPasses (s.amoCheck a) a ((s.store a (bytes32 (op t (s.readX rs2)))).finishX rd t))

/-- R332 -/
def execAmoaddW (rd rs1 rs2 : RegIdx) (aq rl : BitVec 1) (s : State) : Result :=
  s.amo (.amoaddW rd rs1 rs2 aq rl) rd rs1 rs2 fun t v => t + v
/-- R333: never admitted. -/
def execAmoaddD (rd rs1 rs2 : RegIdx) (aq rl : BitVec 1) (s : State) : Result := s.illegal (.amoaddD rd rs1 rs2 aq rl)
/-- R334 -/
def execAmoandW (rd rs1 rs2 : RegIdx) (aq rl : BitVec 1) (s : State) : Result :=
  s.amo (.amoandW rd rs1 rs2 aq rl) rd rs1 rs2 fun t v => t &&& v
/-- R335: never admitted. -/
def execAmoandD (rd rs1 rs2 : RegIdx) (aq rl : BitVec 1) (s : State) : Result := s.illegal (.amoandD rd rs1 rs2 aq rl)
/-- R336 -/
def execAmomaxW (rd rs1 rs2 : RegIdx) (aq rl : BitVec 1) (s : State) : Result :=
  s.amo (.amomaxW rd rs1 rs2 aq rl) rd rs1 rs2 fun t v => if t.slt v then v else t
/-- R337: never admitted. -/
def execAmomaxD (rd rs1 rs2 : RegIdx) (aq rl : BitVec 1) (s : State) : Result := s.illegal (.amomaxD rd rs1 rs2 aq rl)
/-- R338 -/
def execAmomaxuW (rd rs1 rs2 : RegIdx) (aq rl : BitVec 1) (s : State) : Result :=
  s.amo (.amomaxuW rd rs1 rs2 aq rl) rd rs1 rs2 fun t v => if t.ult v then v else t
/-- R339: never admitted. -/
def execAmomaxuD (rd rs1 rs2 : RegIdx) (aq rl : BitVec 1) (s : State) : Result := s.illegal (.amomaxuD rd rs1 rs2 aq rl)
/-- R340 -/
def execAmominW (rd rs1 rs2 : RegIdx) (aq rl : BitVec 1) (s : State) : Result :=
  s.amo (.amominW rd rs1 rs2 aq rl) rd rs1 rs2 fun t v => if v.slt t then v else t
/-- R341: never admitted. -/
def execAmominD (rd rs1 rs2 : RegIdx) (aq rl : BitVec 1) (s : State) : Result := s.illegal (.amominD rd rs1 rs2 aq rl)
/-- R342 -/
def execAmominuW (rd rs1 rs2 : RegIdx) (aq rl : BitVec 1) (s : State) : Result :=
  s.amo (.amominuW rd rs1 rs2 aq rl) rd rs1 rs2 fun t v => if v.ult t then v else t
/-- R343: never admitted. -/
def execAmominuD (rd rs1 rs2 : RegIdx) (aq rl : BitVec 1) (s : State) : Result := s.illegal (.amominuD rd rs1 rs2 aq rl)
/-- R344 -/
def execAmoorW (rd rs1 rs2 : RegIdx) (aq rl : BitVec 1) (s : State) : Result :=
  s.amo (.amoorW rd rs1 rs2 aq rl) rd rs1 rs2 fun t v => t ||| v
/-- R345: never admitted. -/
def execAmoorD (rd rs1 rs2 : RegIdx) (aq rl : BitVec 1) (s : State) : Result := s.illegal (.amoorD rd rs1 rs2 aq rl)
/-- R346 -/
def execAmoswapW (rd rs1 rs2 : RegIdx) (aq rl : BitVec 1) (s : State) : Result :=
  s.amo (.amoswapW rd rs1 rs2 aq rl) rd rs1 rs2 fun _ v => v
/-- R347: never admitted. -/
def execAmoswapD (rd rs1 rs2 : RegIdx) (aq rl : BitVec 1) (s : State) : Result := s.illegal (.amoswapD rd rs1 rs2 aq rl)
/-- R348 -/
def execAmoxorW (rd rs1 rs2 : RegIdx) (aq rl : BitVec 1) (s : State) : Result :=
  s.amo (.amoxorW rd rs1 rs2 aq rl) rd rs1 rs2 fun t v => t ^^^ v
/-- R349: never admitted. -/
def execAmoxorD (rd rs1 rs2 : RegIdx) (aq rl : BitVec 1) (s : State) : Result := s.illegal (.amoxorD rd rs1 rs2 aq rl)

/-- R350: the reservation is made also with `rd = x0`; an lr that raises leaves none. -/
def execLrW (rd rs1 : RegIdx) (aq rl : BitVec 1) (s : State) : Result :=
  let a := s.readX rs1
  s.whenAdmitted s.params.extA (.lrW rd rs1 aq rl)
    (s.whenPasses (s.lrCheck a) a
      (State.finishX { s with reservation := some (granuleBase s.params a) } rd (s.read32 a)))
/-- R351: never admitted. -/
def execLrD (rd rs1 : RegIdx) (aq rl : BitVec 1) (s : State) : Result := s.illegal (.lrD rd rs1 aq rl)
/-- R352: the checks come before the reservation test; every sc clears the reservation (R354); no spurious failure (R355;
log 19). -/
def execScW (rd rs1 rs2 : RegIdx) (aq rl : BitVec 1) (s : State) : Result :=
  let a := s.readX rs1
  let cleared := { s with reservation := none }
  s.whenAdmitted s.params.extA (.scW rd rs1 rs2 aq rl)
    (s.whenPasses (s.scCheck a) a
      (if s.reservation = some (granuleBase s.params a) then
        State.finishX (State.store cleared a (bytes32 (s.readX rs2))) rd 0#32
      else State.finishX cleared rd 1#32))
/-- R353: never admitted. -/
def execScD (rd rs1 rs2 : RegIdx) (aq rl : BitVec 1) (s : State) : Result := s.illegal (.scD rd rs1 rs2 aq rl)

end Sys2Proof.Machine
end

