-- ==== Sys2Proof/Machine/Control.lean ====
section
/-! DEFINITION. The RV32I control transfer instructions (41_rv32i_control.md R150 to R159). -/

namespace Sys2Proof.Machine

/-- Is the address a multiple of 4? (R150) -/
def fetchAligned (t : Word) : Bool := t.extractLsb' 0 2 == 0#2

/-- A taken transfer to `t` from which the state would be `k`: a misaligned target raises at the transferring
instruction and nothing is written (R150). -/
def State.transfer (s : State) (t : Word) (k : State) : Result :=
  if fetchAligned t then .next k else s.raise .instructionAddressMisaligned t

/-- A branch (R151): `pc <- pc + imm_B` where the condition holds, else `pc <- pc + 4`. -/
def State.branch (s : State) (taken : Bool) (off : BitVec 13) : Result :=
  if taken then s.transfer (s.branchTarget off) (s.setPc (s.branchTarget off)) else .next s.advance

/-- R152 -/
def execBeq (rs1 rs2 : RegIdx) (off : BitVec 13) (s : State) : Result := s.branch (s.readX rs1 == s.readX rs2) off
/-- R153 -/
def execBge (rs1 rs2 : RegIdx) (off : BitVec 13) (s : State) : Result :=
  s.branch (!(s.readX rs1).slt (s.readX rs2)) off
/-- R154 -/
def execBgeu (rs1 rs2 : RegIdx) (off : BitVec 13) (s : State) : Result :=
  s.branch (!(s.readX rs1).ult (s.readX rs2)) off
/-- R155 -/
def execBlt (rs1 rs2 : RegIdx) (off : BitVec 13) (s : State) : Result := s.branch ((s.readX rs1).slt (s.readX rs2)) off
/-- R156 -/
def execBltu (rs1 rs2 : RegIdx) (off : BitVec 13) (s : State) : Result := s.branch ((s.readX rs1).ult (s.readX rs2)) off
/-- R157 -/
def execBne (rs1 rs2 : RegIdx) (off : BitVec 13) (s : State) : Result := s.branch (s.readX rs1 != s.readX rs2) off

/-- The state after a jump: `x[rd] <- pc + 4; pc <- t`, both from the jump's own address (R158, R159). -/
def State.linkAndJump (s : State) (rd : RegIdx) (t : Word) : State := (s.writeX rd (s.pc + 4#32)).setPc t

/-- R158 -/
def execJal (rd : RegIdx) (off : BitVec 21) (s : State) : Result :=
  s.transfer (s.jalTarget off) (s.linkAndJump rd (s.jalTarget off))
/-- R159: the target is read before `x[rd]` is written (00_scope.md R14). -/
def execJalr (rd rs1 : RegIdx) (imm : BitVec 12) (s : State) : Result :=
  s.transfer (s.jalrTarget rs1 imm) (s.linkAndJump rd (s.jalrTarget rs1 imm))

end Sys2Proof.Machine
end

