-- ==== Sys2Proof/Machine/Float.lean ====
section
/-! DEFINITION. The intended instance of `FP_NUMERICS`: IEEE 754-2008 binary arithmetic with the rules of 45_fd_float.md
R310 to R321. Operands are taken apart into exact values, the result is computed exactly as an integer times a power of
two (a quotient or a root keeps enough bits and a sticky bit), and it is rounded once (R313). -/

namespace Sys2Proof.Machine

/-! ### Formats and values (R310, R311) -/

/-- A binary interchange format by the widths of its two fields (R310). -/
structure FpFormat where
  expBits : Nat
  fracBits : Nat
  deriving DecidableEq, Repr

/-- Single: sign 31, exponent 30 to 23, fraction 22 to 0 (R310). -/
def fpSingle : FpFormat := { expBits := 8, fracBits := 23 }
/-- Double: sign 63, exponent 62 to 52, fraction 51 to 0 (R310). -/
def fpDouble : FpFormat := { expBits := 11, fracBits := 52 }

/-- The bias: 127 or 1023 (R310). -/
def FpFormat.bias (f : FpFormat) : Nat := 2 ^ (f.expBits - 1) - 1
/-- The exponent of the least normal number, `1 - Bias` (R311). -/
def FpFormat.emin (f : FpFormat) : Int := 1 - (f.bias : Int)
/-- The exponent of the greatest normal numbers. -/
def FpFormat.emax (f : FpFormat) : Int := f.bias
/-- The exponent of the least subnormal number: the unit of the subnormals and of the least normals. -/
def FpFormat.qmin (f : FpFormat) : Int := f.emin - f.fracBits

/-- What a bit pattern stands for (R311): a NaN, an infinity, or `(-1)^neg x m x 2^e`. -/
inductive FpValue where
  | nan (signaling : Bool)
  | inf (neg : Bool)
  | finite (neg : Bool) (m : Nat) (e : Int)
  deriving DecidableEq, Repr

/-- The fraction field of a pattern (R310). -/
def FpFormat.fraction (f : FpFormat) (b : Nat) : Nat := b % 2 ^ f.fracBits
/-- The exponent field of a pattern (R310). -/
def FpFormat.exponent (f : FpFormat) (b : Nat) : Nat := b / 2 ^ f.fracBits % 2 ^ f.expBits
/-- The sign bit of a pattern (R310). -/
def FpFormat.sign (f : FpFormat) (b : Nat) : Bool := b / 2 ^ (f.fracBits + f.expBits) % 2 == 1

/-- The value of a pattern (R311): exponent all ones is an infinity or a NaN, quiet when the top fraction bit is 1;
exponent zero is a zero or a subnormal; else the card's formula. -/
def FpFormat.unpack (f : FpFormat) (b : Nat) : FpValue :=
  let frac := f.fraction b
  let ex := f.exponent b
  if ex = 2 ^ f.expBits - 1 then
    if frac = 0 then .inf (f.sign b) else .nan (frac < 2 ^ (f.fracBits - 1))
  else if ex = 0 then .finite (f.sign b) frac f.qmin
  else .finite (f.sign b) (2 ^ f.fracBits + frac) ((ex : Int) - f.bias - f.fracBits)

/-- A pattern from its three fields. -/
def FpFormat.pattern (f : FpFormat) (neg : Bool) (ex frac : Nat) : Nat :=
  (if neg then 2 ^ (f.fracBits + f.expBits) else 0) + ex * 2 ^ f.fracBits + frac

/-- The canonical NaN (R315). -/
def FpFormat.canonicalNan (f : FpFormat) : Nat := f.pattern false (2 ^ f.expBits - 1) (2 ^ (f.fracBits - 1))
/-- An infinity. -/
def FpFormat.infinity (f : FpFormat) (neg : Bool) : Nat := f.pattern neg (2 ^ f.expBits - 1) 0
/-- The finite number of greatest magnitude. -/
def FpFormat.maxFinite (f : FpFormat) (neg : Bool) : Nat := f.pattern neg (2 ^ f.expBits - 2) (2 ^ f.fracBits - 1)
/-- A zero. -/
def FpFormat.zero (f : FpFormat) (neg : Bool) : Nat := f.pattern neg 0 0

/-- Is it a NaN? -/
def FpValue.isNan : FpValue → Bool
  | .nan _ => true
  | _ => false

/-- Is it a signaling NaN? -/
def FpValue.isSignaling : FpValue → Bool
  | .nan s => s
  | _ => false

/-! ### Flags (10_state.md R35, R314) -/

/-- The five flags from bit 4 down to bit 0. -/
def fpFlags (nv dz of_ uf nx : Bool) : FpFlags :=
  BitVec.ofBool nv ++ BitVec.ofBool dz ++ BitVec.ofBool of_ ++ BitVec.ofBool uf ++ BitVec.ofBool nx

/-- Only NV, when `b`. -/
def flagNV (b : Bool) : FpFlags := fpFlags b false false false false
/-- Only DZ. -/
def flagDZ : FpFlags := fpFlags false true false false false
/-- Only NX, when `b`. -/
def flagNX (b : Bool) : FpFlags := fpFlags false false false false b
/-- No flag. -/
def noFlags : FpFlags := 0#5

/-! ### Rounding (R313) -/

/-- Is the magnitude `q + rem/den` (`0 ≤ rem < den`) rounded up to `q + 1`? `odd` says that `q` is odd. -/
def roundsUp (rm : RoundingMode) (neg odd : Bool) (rem den : Nat) : Bool :=
  match rm with
  | .nearestEven => den < 2 * rem || (2 * rem == den && odd)
  | .towardZero => false
  | .down => neg && rem != 0
  | .up => !neg && rem != 0
  | .nearestAway => den ≤ 2 * rem

/-- The magnitude `m x 2^e` in units of `2^q`, rounded to an integer, and whether that is inexact. -/
def roundToUnit (rm : RoundingMode) (neg : Bool) (m : Nat) (e q : Int) : Nat × Bool :=
  if q ≤ e then (m * 2 ^ (e - q).toNat, false)
  else
    let den := 2 ^ (q - e).toNat
    let quo := m / den
    let rem := m % den
    (if roundsUp rm neg (quo % 2 == 1) rem den then quo + 1 else quo, rem != 0)

/-- What an overflow gives: an infinity or the greatest finite number, by the rounding mode; OF and NX. -/
def FpFormat.overflow (f : FpFormat) (rm : RoundingMode) (neg : Bool) : Nat × FpFlags :=
  let toInf :=
    match rm with
    | .nearestEven => true
    | .nearestAway => true
    | .towardZero => false
    | .down => neg
    | .up => !neg
  (if toInf then f.infinity neg else f.maxFinite neg, fpFlags false false true false true)

/-- Is a result with leading exponent `top` tiny? Before rounding it is when `top` is below `emin`; after rounding (to
full precision with an unbounded exponent) it is then so too, unless it is carried up to `2^emin`. Where the two differ
the answer is the free `Config.tinyBeforeRounding` (log 10). -/
def FpFormat.isTiny (f : FpFormat) (rm : RoundingMode) (neg : Bool) (m : Nat) (e top : Int) : Bool :=
  if top < f.emin then
    if top = f.emin - 1 ∧ (roundToUnit rm neg m e (top - f.fracBits)).1 = 2 ^ (f.fracBits + 1) then
      Config.tinyBeforeRounding
    else true
  else false

/-- The nonzero magnitude `m x 2^e` with sign `neg`, rounded once (R313), with its flags OF, UF, NX. -/
def FpFormat.round (f : FpFormat) (rm : RoundingMode) (neg : Bool) (m : Nat) (e : Int) : Nat × FpFlags :=
  let top := e + m.log2
  let q := max (top - f.fracBits) f.qmin
  let (sig0, inexact) := roundToUnit rm neg m e q
  let carry : Bool := sig0 == 2 ^ (f.fracBits + 1)
  let sig := if carry then 2 ^ f.fracBits else sig0
  let unit := if carry then q + 1 else q
  if f.emax - f.fracBits < unit then f.overflow rm neg
  else
    let bits :=
      if sig < 2 ^ f.fracBits then f.pattern neg 0 sig
      else f.pattern neg (unit - f.qmin + 1).toNat (sig - 2 ^ f.fracBits)
    (bits, fpFlags false false false (inexact && f.isTiny rm neg m e top) inexact)

/-- The exact value `z x 2^e`, rounded; an exact zero takes the sign `zeroNeg`. -/
def FpFormat.roundInt (f : FpFormat) (rm : RoundingMode) (z e : Int) (zeroNeg : Bool) : Nat × FpFlags :=
  if z = 0 then (f.zero zeroNeg, noFlags) else f.round rm (z < 0) z.natAbs e

/-! ### Arithmetic (R244 to R261, R315) -/

/-- The canonical NaN with NV. -/
def FpFormat.invalid (f : FpFormat) : Nat × FpFlags := (f.canonicalNan, flagNV true)

/-- The canonical NaN, with NV when an operand is signaling (R315). -/
def FpFormat.nanOf (f : FpFormat) (vs : List FpValue) : Nat × FpFlags :=
  (f.canonicalNan, flagNV (vs.any FpValue.isSignaling))

/-- A signed magnitude. -/
def signedMag (neg : Bool) (m : Nat) : Int := if neg then -(m : Int) else m

/-- The sum of two finite values, rounded once. An exact zero is +0, or -0 in mode 010, unless both are negative. -/
def FpFormat.addFinite (f : FpFormat) (rm : RoundingMode) (n1 : Bool) (m1 : Nat) (e1 : Int) (n2 : Bool) (m2 : Nat)
    (e2 : Int) : Nat × FpFlags :=
  let e := min e1 e2
  let z := signedMag n1 (m1 * 2 ^ (e1 - e).toNat) + signedMag n2 (m2 * 2 ^ (e2 - e).toNat)
  f.roundInt rm z e (if n1 = n2 then n1 else rm = .down)

/-- Addition (R244): infinity plus minus infinity is invalid. -/
def FpFormat.addValues (f : FpFormat) (rm : RoundingMode) (a b : FpValue) : Nat × FpFlags :=
  if a.isNan || b.isNan then f.nanOf [a, b]
  else
    match a, b with
    | .inf n1, .inf n2 => if n1 = n2 then (f.infinity n1, noFlags) else f.invalid
    | .inf n1, _ => (f.infinity n1, noFlags)
    | _, .inf n2 => (f.infinity n2, noFlags)
    | .finite n1 m1 e1, .finite n2 m2 e2 => f.addFinite rm n1 m1 e1 n2 m2 e2
    | _, _ => f.nanOf [a, b]

/-- The value with the opposite sign. -/
def FpValue.negate : FpValue → FpValue
  | .nan s => .nan s
  | .inf n => .inf (!n)
  | .finite n m e => .finite (!n) m e

/-- Multiplication (R248): zero times infinity is invalid. -/
def FpFormat.mulValues (f : FpFormat) (rm : RoundingMode) (a b : FpValue) : Nat × FpFlags :=
  if a.isNan || b.isNan then f.nanOf [a, b]
  else
    match a, b with
    | .inf n1, .inf n2 => (f.infinity (n1 != n2), noFlags)
    | .inf n1, .finite n2 m2 _ => if m2 = 0 then f.invalid else (f.infinity (n1 != n2), noFlags)
    | .finite n1 m1 _, .inf n2 => if m1 = 0 then f.invalid else (f.infinity (n1 != n2), noFlags)
    | .finite n1 m1 e1, .finite n2 m2 e2 =>
      if m1 * m2 = 0 then (f.zero (n1 != n2), noFlags) else f.round rm (n1 != n2) (m1 * m2) (e1 + e2)
    | _, _ => f.nanOf [a, b]

/-- The quotient of two nonzero magnitudes, with at least `fracBits + 3` bits and a sticky bit below them. -/
def FpFormat.divFinite (f : FpFormat) (rm : RoundingMode) (neg : Bool) (m1 : Nat) (e1 : Int) (m2 : Nat) (e2 : Int) :
    Nat × FpFlags :=
  let k := f.fracBits + 4 + m2.log2
  let quo := m1 * 2 ^ k / m2
  let sticky := if m1 * 2 ^ k % m2 = 0 then 0 else 1
  f.round rm neg (2 * quo + sticky) (e1 - e2 - k - 1)

/-- Division (R250): 0/0 and infinity/infinity are invalid; a finite nonzero number by zero is a signed infinity with DZ. -/
def FpFormat.divValues (f : FpFormat) (rm : RoundingMode) (a b : FpValue) : Nat × FpFlags :=
  if a.isNan || b.isNan then f.nanOf [a, b]
  else
    match a, b with
    | .inf _, .inf _ => f.invalid
    | .inf n1, .finite n2 _ _ => (f.infinity (n1 != n2), noFlags)
    | .finite n1 _ _, .inf n2 => (f.zero (n1 != n2), noFlags)
    | .finite n1 m1 e1, .finite n2 m2 e2 =>
      if m2 = 0 then
        if m1 = 0 then f.invalid else (f.infinity (n1 != n2), flagDZ)
      else if m1 = 0 then (f.zero (n1 != n2), noFlags)
      else f.divFinite rm (n1 != n2) m1 e1 m2 e2
    | _, _ => f.nanOf [a, b]

/-- The bits of the integer square root of `n` from bit `k - 1` down, added to the part `r` already found. -/
def isqrtFrom (n : Nat) : Nat → Nat → Nat
  | 0, r => r
  | k + 1, r => if (r + 2 ^ k) * (r + 2 ^ k) ≤ n then isqrtFrom n k (r + 2 ^ k) else isqrtFrom n k r

/-- The integer square root. -/
def isqrt (n : Nat) : Nat := isqrtFrom n (n.log2 / 2 + 1) 0

/-- The square root of a nonzero magnitude, with at least `fracBits + 3` bits and a sticky bit below them. -/
def FpFormat.sqrtFinite (f : FpFormat) (rm : RoundingMode) (m : Nat) (e : Int) : Nat × FpFlags :=
  let k0 := 2 * f.fracBits + 8
  let k := if (e - k0) % 2 = 0 then k0 else k0 + 1
  let root := isqrt (m * 2 ^ k)
  let sticky := if root * root = m * 2 ^ k then 0 else 1
  f.round rm false (2 * root + sticky) ((e - k) / 2 - 1)

/-- Square root (R252): an operand below zero is invalid; the root of -0 is -0. -/
def FpFormat.sqrtValue (f : FpFormat) (rm : RoundingMode) (a : FpValue) : Nat × FpFlags :=
  match a with
  | .nan _ => f.nanOf [a]
  | .inf neg => if neg then f.invalid else (f.infinity false, noFlags)
  | .finite neg m e =>
    if m = 0 then (f.zero neg, noFlags) else if neg then f.invalid else f.sqrtFinite rm m e

/-- Is the product of the two values zero times infinity? -/
def FpValue.zeroTimesInf (a b : FpValue) : Bool :=
  match a, b with
  | .inf _, .finite _ m _ => m == 0
  | .finite _ m _, .inf _ => m == 0
  | _, _ => false

/-- The exact product of two values, neither a NaN nor zero times infinity. -/
def FpValue.product (a b : FpValue) : FpValue :=
  match a, b with
  | .inf n1, .inf n2 => .inf (n1 != n2)
  | .inf n1, .finite n2 _ _ => .inf (n1 != n2)
  | .finite n1 _ _, .inf n2 => .inf (n1 != n2)
  | .finite n1 m1 e1, .finite n2 m2 e2 => .finite (n1 != n2) (m1 * m2) (e1 + e2)
  | _, _ => .nan false

/-- Fused multiply-add (R254, and the flags of section 4): `a x b + c` rounded once; zero times infinity is invalid even
when the addend is a quiet NaN. -/
def FpFormat.fmaValues (f : FpFormat) (rm : RoundingMode) (a b c : FpValue) : Nat × FpFlags :=
  if a.zeroTimesInf b then f.invalid
  else if a.isNan || b.isNan || c.isNan then f.nanOf [a, b, c]
  else f.addValues rm (a.product b) c

/-! ### Comparison, minimum and maximum, classification (R317 to R319) -/

/-- The order of the patterns that are no NaN, as integers; +0 and -0 are both 0. -/
def FpFormat.orderKey (f : FpFormat) (b : Nat) : Int := signedMag (f.sign b) (b % 2 ^ (f.fracBits + f.expBits))

/-- Equality: NV only for a signaling NaN (R318). -/
def FpFormat.eqBits (f : FpFormat) (a b : Nat) : Bool × FpFlags :=
  let va := f.unpack a
  let vb := f.unpack b
  (!va.isNan && !vb.isNan && f.orderKey a == f.orderKey b, flagNV (va.isSignaling || vb.isSignaling))

/-- Less than: NV for any NaN (R318). -/
def FpFormat.ltBits (f : FpFormat) (a b : Nat) : Bool × FpFlags :=
  let anyNan := (f.unpack a).isNan || (f.unpack b).isNan
  (!anyNan && decide (f.orderKey a < f.orderKey b), flagNV anyNan)

/-- Less than or equal: NV for any NaN (R318). -/
def FpFormat.leBits (f : FpFormat) (a b : Nat) : Bool × FpFlags :=
  let anyNan := (f.unpack a).isNan || (f.unpack b).isNan
  (!anyNan && decide (f.orderKey a ≤ f.orderKey b), flagNV anyNan)

/-- Minimum (`wantMax` false) or maximum (R317): one NaN gives the other operand, two the canonical NaN; -0 is less
than +0; a signaling NaN raises NV. -/
def FpFormat.minMax (f : FpFormat) (wantMax : Bool) (a b : Nat) : Nat × FpFlags :=
  let va := f.unpack a
  let vb := f.unpack b
  let fl := flagNV (va.isSignaling || vb.isSignaling)
  if va.isNan && vb.isNan then (f.canonicalNan, fl)
  else if va.isNan then (b, fl)
  else if vb.isNan then (a, fl)
  else
    let aBelow := decide (f.orderKey a < f.orderKey b) || (f.orderKey a == f.orderKey b && f.sign a)
    (if aBelow != wantMax then a else b, fl)

/-- The class mask (R319). -/
def FpFormat.classOf (f : FpFormat) (b : Nat) : BitVec 10 :=
  match f.unpack b with
  | .nan signaling => if signaling then 1#10 <<< 8 else 1#10 <<< 9
  | .inf neg => if neg then 1#10 <<< 0 else 1#10 <<< 7
  | .finite neg m _ =>
    if m = 0 then (if neg then 1#10 <<< 3 else 1#10 <<< 4)
    else if m < 2 ^ f.fracBits then (if neg then 1#10 <<< 2 else 1#10 <<< 5)
    else (if neg then 1#10 <<< 1 else 1#10 <<< 6)

/-! ### Conversions (R284, R285, R320, R321) -/

/-- An integer to the nearest value of the format (R321). -/
def FpFormat.fromInt (f : FpFormat) (rm : RoundingMode) (z : Int) : Nat × FpFlags := f.roundInt rm z 0 false

/-- A value to an integer of the range `lo` to `hi`: NX when inexact; saturation and NV when out of range (R320). -/
def FpValue.toInteger (rm : RoundingMode) (lo hi : Int) (v : FpValue) : Int × FpFlags :=
  match v with
  | .nan _ => (hi, flagNV true)
  | .inf neg => (if neg then lo else hi, flagNV true)
  | .finite neg m e =>
    let (mag, inexact) := roundToUnit rm neg m e 0
    let z := signedMag neg mag
    if z < lo then (lo, flagNV true) else if hi < z then (hi, flagNV true) else (z, flagNX inexact)

/-- A value of one format to another: a NaN becomes the canonical NaN, NV when signaling (R315, R284, R285). -/
def FpFormat.convert (f : FpFormat) (rm : RoundingMode) (v : FpValue) : Nat × FpFlags :=
  match v with
  | .nan _ => f.nanOf [v]
  | .inf neg => (f.infinity neg, noFlags)
  | .finite neg m e => if m = 0 then (f.zero neg, noFlags) else f.round rm neg m e

/-! ### The record (R316) -/

/-- A result pattern as a bit vector. -/
def asBits (w : Nat) (r : Nat × FpFlags) : BitVec w × FpFlags := (BitVec.ofNat w r.1, r.2)

/-- A comparison result as one bit. -/
def asBit (r : Bool × FpFlags) : BitVec 1 × FpFlags := (BitVec.ofBool r.1, r.2)

/-- An integer result as a word. -/
def asWord (r : Int × FpFlags) : Word × FpFlags := (BitVec.ofInt 32 r.1, r.2)

/-- The operations of one format. -/
def FpFormat.ops (f : FpFormat) (w : Nat) : FpOps w :=
  { add := fun rm a b => asBits w (f.addValues rm (f.unpack a.toNat) (f.unpack b.toNat))
    sub := fun rm a b => asBits w (f.addValues rm (f.unpack a.toNat) (f.unpack b.toNat).negate)
    mul := fun rm a b => asBits w (f.mulValues rm (f.unpack a.toNat) (f.unpack b.toNat))
    div := fun rm a b => asBits w (f.divValues rm (f.unpack a.toNat) (f.unpack b.toNat))
    sqrt := fun rm a => asBits w (f.sqrtValue rm (f.unpack a.toNat))
    fma := fun rm a b c => asBits w (f.fmaValues rm (f.unpack a.toNat) (f.unpack b.toNat) (f.unpack c.toNat))
    min := fun a b => asBits w (f.minMax false a.toNat b.toNat)
    max := fun a b => asBits w (f.minMax true a.toNat b.toNat)
    eq := fun a b => asBit (f.eqBits a.toNat b.toNat)
    lt := fun a b => asBit (f.ltBits a.toNat b.toNat)
    le := fun a b => asBit (f.leBits a.toNat b.toNat)
    classify := fun a => f.classOf a.toNat
    ofInt := fun rm v => asBits w (f.fromInt rm v.toInt)
    ofUInt := fun rm v => asBits w (f.fromInt rm v.toNat)
    toInt := fun rm a => asWord ((f.unpack a.toNat).toInteger rm (-2 ^ 31) (2 ^ 31 - 1))
    toUInt := fun rm a => asWord ((f.unpack a.toNat).toInteger rm 0 (2 ^ 32 - 1)) }

/-- The intended instance of `FP_NUMERICS` (R316). -/
def ieeeNumerics : FpNumerics :=
  { single := fpSingle.ops 32
    double := fpDouble.ops 64
    widen := fun rm a => asBits 64 (fpDouble.convert rm (fpSingle.unpack a.toNat))
    narrow := fun rm a => asBits 32 (fpSingle.convert rm (fpDouble.unpack a.toNat)) }

/-- The `FP_NUMERICS` that the parameters choose (R316; log 9). -/
def numericsOf (p : Params) : FpNumerics :=
  match p.fpNumerics with
  | .intended => ieeeNumerics
  | .other n => Config.fpOther n

end Sys2Proof.Machine
end

