-- ==== Sys2Proof/Machine/LoadStore.lean ====
section
/-! DEFINITION. The RV32I loads and stores (42_rv32i_loadstore.md R170 to R180). -/

namespace Sys2Proof.Machine

/-- A load of `n` bytes (R171): the address, its checks, the value `value a` of the bytes at `a` after extension, the
register write. -/
def State.load (s : State) (n : Nat) (rd rs1 : RegIdx) (imm : BitVec 12) (value : Word → Word) : Result :=
  let a := s.effAddr rs1 imm
  s.whenPasses (s.loadCheck a n) a (s.finishX rd (value a))

/-- A store (R180): the address, its checks, the bytes. -/
def State.storeAt (s : State) (rs1 : RegIdx) (imm : BitVec 12) (bs : List Byte) : Result :=
  let a := s.effAddr rs1 imm
  s.whenPasses (s.storeCheck a bs.length) a (.next (s.store a bs).advance)

/-- R172 -/
def execLb (rd rs1 : RegIdx) (imm : BitVec 12) (s : State) : Result :=
  s.load 1 rd rs1 imm fun a => (s.byte a).signExtend 32
/-- R173 -/
def execLbu (rd rs1 : RegIdx) (imm : BitVec 12) (s : State) : Result :=
  s.load 1 rd rs1 imm fun a => (s.byte a).setWidth 32
/-- R174 -/
def execLh (rd rs1 : RegIdx) (imm : BitVec 12) (s : State) : Result :=
  s.load 2 rd rs1 imm fun a => (s.read16 a).signExtend 32
/-- R175 -/
def execLhu (rd rs1 : RegIdx) (imm : BitVec 12) (s : State) : Result :=
  s.load 2 rd rs1 imm fun a => (s.read16 a).setWidth 32
/-- R176 -/
def execLw (rd rs1 : RegIdx) (imm : BitVec 12) (s : State) : Result := s.load 4 rd rs1 imm fun a => s.read32 a
/-- R177 -/
def execSb (rs1 rs2 : RegIdx) (imm : BitVec 12) (s : State) : Result :=
  s.storeAt rs1 imm [(s.readX rs2).extractLsb' 0 8]
/-- R178 -/
def execSh (rs1 rs2 : RegIdx) (imm : BitVec 12) (s : State) : Result :=
  s.storeAt rs1 imm (bytes16 ((s.readX rs2).extractLsb' 0 16))
/-- R179 -/
def execSw (rs1 rs2 : RegIdx) (imm : BitVec 12) (s : State) : Result := s.storeAt rs1 imm (bytes32 (s.readX rs2))

end Sys2Proof.Machine
end

