-- ==== Sys2Proof/Machine/FloatInstr.lean ====
section
/-! DEFINITION. The F and D groups (45_fd_float.md R240 to R301). A `.s` row is admitted when `EXT_F`, a `.d` row when
`EXT_D` too; a row that is not admitted raises IllegalInstruction (30_encoding.md R104), and so does a reserved rounding
mode (R313). -/

namespace Sys2Proof.Machine

/-! ### Shared shapes -/

/-- A floating-point load (R240, R241): as an integer load (42_rv32i_loadstore.md R171), into an f register. -/
def State.fpLoad (s : State) (admitted : Bool) (i : Instr) (n : Nat) (rs1 : RegIdx) (imm : BitVec 12)
    (write : Word → State) : Result :=
  let a := s.effAddr rs1 imm
  s.whenAdmitted admitted i (s.whenPasses (s.loadCheck a n) a (.next (write a).advance))

/-- A floating-point store (R242, R243), as R180. -/
def State.fpStore (s : State) (admitted : Bool) (i : Instr) (rs1 : RegIdx) (imm : BitVec 12) (bs : List Byte) : Result :=
  s.whenAdmitted admitted i (s.storeAt rs1 imm bs)

/-- `(r, fl) <- ...; f[rd] <- box(r); fflags <- fflags | fl; pc <- pc + 4`. -/
def State.finishS (s : State) (rd : RegIdx) (r : Word × FpFlags) : Result := .next ((s.writeS rd r.1).accrue r.2).advance

/-- `(r, fl) <- ...; f[rd] <- r; fflags <- fflags | fl; pc <- pc + 4`. -/
def State.finishD (s : State) (rd : RegIdx) (r : DWord × FpFlags) : Result := .next ((s.writeD rd r.1).accrue r.2).advance

/-- `(r, fl) <- ...; x[rd] <- r; fflags <- fflags | fl; pc <- pc + 4`. -/
def State.finishFlagsX (s : State) (rd : RegIdx) (r : Word × FpFlags) : Result :=
  .next ((s.writeX rd r.1).accrue r.2).advance

/-- A row that rounds: admitted, then the effective mode or IllegalInstruction (R313). -/
def State.rounding (s : State) (admitted : Bool) (i : Instr) (rm : BitVec 3) (k : RoundingMode → Result) : Result :=
  s.whenAdmitted admitted i
    (match s.effectiveMode rm with
     | some m => k m
     | none => s.illegal i)

/-- The single-precision operations in force. -/
def State.single (s : State) : FpOps 32 := (numericsOf s.params).single
/-- The double-precision operations in force. -/
def State.double (s : State) : FpOps 64 := (numericsOf s.params).double

/-- A bit result zero-extended (R272). -/
def bitResult (r : BitVec 1 × FpFlags) : Word × FpFlags := (r.1.setWidth 32, r.2)

/-! ### Loads and stores (R240 to R243) -/

/-- R240 -/
def execFlw (rd rs1 : RegIdx) (imm : BitVec 12) (s : State) : Result :=
  s.fpLoad (hasF s.params) (.flw rd rs1 imm) 4 rs1 imm fun a => s.writeS rd (s.read32 a)
/-- R241 -/
def execFld (rd rs1 : RegIdx) (imm : BitVec 12) (s : State) : Result :=
  s.fpLoad (hasD s.params) (.fld rd rs1 imm) 8 rs1 imm fun a => s.writeD rd (s.read64 a)
/-- R242: the low 32 bits, whatever the upper half holds. -/
def execFsw (rs1 rs2 : RegIdx) (imm : BitVec 12) (s : State) : Result :=
  s.fpStore (hasF s.params) (.fsw rs1 rs2 imm) rs1 imm (bytes32 (s.readLow rs2))
/-- R243 -/
def execFsd (rs1 rs2 : RegIdx) (imm : BitVec 12) (s : State) : Result :=
  s.fpStore (hasD s.params) (.fsd rs1 rs2 imm) rs1 imm (bytes64 (s.readD rs2))

/-! ### Arithmetic (R244 to R253) -/

/-- R244 -/
def execFaddS (rd rs1 rs2 : RegIdx) (rm : BitVec 3) (s : State) : Result :=
  s.rounding (hasF s.params) (.faddS rd rs1 rs2 rm) rm fun m =>
    s.finishS rd (s.single.add m (s.readS rs1) (s.readS rs2))
/-- R245 -/
def execFaddD (rd rs1 rs2 : RegIdx) (rm : BitVec 3) (s : State) : Result :=
  s.rounding (hasD s.params) (.faddD rd rs1 rs2 rm) rm fun m =>
    s.finishD rd (s.double.add m (s.readD rs1) (s.readD rs2))
/-- R246 -/
def execFsubS (rd rs1 rs2 : RegIdx) (rm : BitVec 3) (s : State) : Result :=
  s.rounding (hasF s.params) (.fsubS rd rs1 rs2 rm) rm fun m =>
    s.finishS rd (s.single.sub m (s.readS rs1) (s.readS rs2))
/-- R247 -/
def execFsubD (rd rs1 rs2 : RegIdx) (rm : BitVec 3) (s : State) : Result :=
  s.rounding (hasD s.params) (.fsubD rd rs1 rs2 rm) rm fun m =>
    s.finishD rd (s.double.sub m (s.readD rs1) (s.readD rs2))
/-- R248 -/
def execFmulS (rd rs1 rs2 : RegIdx) (rm : BitVec 3) (s : State) : Result :=
  s.rounding (hasF s.params) (.fmulS rd rs1 rs2 rm) rm fun m =>
    s.finishS rd (s.single.mul m (s.readS rs1) (s.readS rs2))
/-- R249 -/
def execFmulD (rd rs1 rs2 : RegIdx) (rm : BitVec 3) (s : State) : Result :=
  s.rounding (hasD s.params) (.fmulD rd rs1 rs2 rm) rm fun m =>
    s.finishD rd (s.double.mul m (s.readD rs1) (s.readD rs2))
/-- R250 -/
def execFdivS (rd rs1 rs2 : RegIdx) (rm : BitVec 3) (s : State) : Result :=
  s.rounding (hasF s.params) (.fdivS rd rs1 rs2 rm) rm fun m =>
    s.finishS rd (s.single.div m (s.readS rs1) (s.readS rs2))
/-- R251 -/
def execFdivD (rd rs1 rs2 : RegIdx) (rm : BitVec 3) (s : State) : Result :=
  s.rounding (hasD s.params) (.fdivD rd rs1 rs2 rm) rm fun m =>
    s.finishD rd (s.double.div m (s.readD rs1) (s.readD rs2))
/-- R252 -/
def execFsqrtS (rd rs1 : RegIdx) (rm : BitVec 3) (s : State) : Result :=
  s.rounding (hasF s.params) (.fsqrtS rd rs1 rm) rm fun m => s.finishS rd (s.single.sqrt m (s.readS rs1))
/-- R253 -/
def execFsqrtD (rd rs1 : RegIdx) (rm : BitVec 3) (s : State) : Result :=
  s.rounding (hasD s.params) (.fsqrtD rd rs1 rm) rm fun m => s.finishD rd (s.double.sqrt m (s.readD rs1))

/-! ### Fused multiply-add: the negated forms flip operand signs before the one rounding (R254 to R261, R316) -/

/-- R254 -/
def execFmaddS (rd rs1 rs2 rs3 : RegIdx) (rm : BitVec 3) (s : State) : Result :=
  s.rounding (hasF s.params) (.fmaddS rd rs1 rs2 rs3 rm) rm fun m =>
    s.finishS rd (s.single.fma m (s.readS rs1) (s.readS rs2) (s.readS rs3))
/-- R255 -/
def execFmaddD (rd rs1 rs2 rs3 : RegIdx) (rm : BitVec 3) (s : State) : Result :=
  s.rounding (hasD s.params) (.fmaddD rd rs1 rs2 rs3 rm) rm fun m =>
    s.finishD rd (s.double.fma m (s.readD rs1) (s.readD rs2) (s.readD rs3))
/-- R256 -/
def execFmsubS (rd rs1 rs2 rs3 : RegIdx) (rm : BitVec 3) (s : State) : Result :=
  s.rounding (hasF s.params) (.fmsubS rd rs1 rs2 rs3 rm) rm fun m =>
    s.finishS rd (s.single.fma m (s.readS rs1) (s.readS rs2) (negS (s.readS rs3)))
/-- R257 -/
def execFmsubD (rd rs1 rs2 rs3 : RegIdx) (rm : BitVec 3) (s : State) : Result :=
  s.rounding (hasD s.params) (.fmsubD rd rs1 rs2 rs3 rm) rm fun m =>
    s.finishD rd (s.double.fma m (s.readD rs1) (s.readD rs2) (negD (s.readD rs3)))
/-- R258 -/
def execFnmsubS (rd rs1 rs2 rs3 : RegIdx) (rm : BitVec 3) (s : State) : Result :=
  s.rounding (hasF s.params) (.fnmsubS rd rs1 rs2 rs3 rm) rm fun m =>
    s.finishS rd (s.single.fma m (negS (s.readS rs1)) (s.readS rs2) (s.readS rs3))
/-- R259 -/
def execFnmsubD (rd rs1 rs2 rs3 : RegIdx) (rm : BitVec 3) (s : State) : Result :=
  s.rounding (hasD s.params) (.fnmsubD rd rs1 rs2 rs3 rm) rm fun m =>
    s.finishD rd (s.double.fma m (negD (s.readD rs1)) (s.readD rs2) (s.readD rs3))
/-- R260 -/
def execFnmaddS (rd rs1 rs2 rs3 : RegIdx) (rm : BitVec 3) (s : State) : Result :=
  s.rounding (hasF s.params) (.fnmaddS rd rs1 rs2 rs3 rm) rm fun m =>
    s.finishS rd (s.single.fma m (negS (s.readS rs1)) (s.readS rs2) (negS (s.readS rs3)))
/-- R261 -/
def execFnmaddD (rd rs1 rs2 rs3 : RegIdx) (rm : BitVec 3) (s : State) : Result :=
  s.rounding (hasD s.params) (.fnmaddD rd rs1 rs2 rs3 rm) rm fun m =>
    s.finishD rd (s.double.fma m (negD (s.readD rs1)) (s.readD rs2) (negD (s.readD rs3)))

/-! ### Sign injection: bits are copied, no flag, no rounding (R262 to R267) -/

/-- `{sign of b, rest of a}` of a single. -/
def injectS (sign : BitVec 1) (a : Word) : Word := sign ++ a.extractLsb' 0 31
/-- `{sign of b, rest of a}` of a double. -/
def injectD (sign : BitVec 1) (a : DWord) : DWord := sign ++ a.extractLsb' 0 63
/-- The sign bit of a single. -/
def signS (a : Word) : BitVec 1 := a.extractLsb' 31 1
/-- The sign bit of a double. -/
def signD (a : DWord) : BitVec 1 := a.extractLsb' 63 1

/-- A sign injection of singles: `sign a b` is the new sign. -/
def State.signInjectS (s : State) (i : Instr) (rd rs1 rs2 : RegIdx) (sign : Word → Word → BitVec 1) : Result :=
  s.whenAdmitted (hasF s.params) i
    (.next (s.writeS rd (injectS (sign (s.readS rs1) (s.readS rs2)) (s.readS rs1))).advance)

/-- A sign injection of doubles. -/
def State.signInjectD (s : State) (i : Instr) (rd rs1 rs2 : RegIdx) (sign : DWord → DWord → BitVec 1) : Result :=
  s.whenAdmitted (hasD s.params) i
    (.next (s.writeD rd (injectD (sign (s.readD rs1) (s.readD rs2)) (s.readD rs1))).advance)

/-- R262 -/
def execFsgnjS (rd rs1 rs2 : RegIdx) (s : State) : Result :=
  s.signInjectS (.fsgnjS rd rs1 rs2) rd rs1 rs2 fun _ b => signS b
/-- R263 -/
def execFsgnjD (rd rs1 rs2 : RegIdx) (s : State) : Result :=
  s.signInjectD (.fsgnjD rd rs1 rs2) rd rs1 rs2 fun _ b => signD b
/-- R264 -/
def execFsgnjnS (rd rs1 rs2 : RegIdx) (s : State) : Result :=
  s.signInjectS (.fsgnjnS rd rs1 rs2) rd rs1 rs2 fun _ b => ~~~signS b
/-- R265 -/
def execFsgnjnD (rd rs1 rs2 : RegIdx) (s : State) : Result :=
  s.signInjectD (.fsgnjnD rd rs1 rs2) rd rs1 rs2 fun _ b => ~~~signD b
/-- R266 -/
def execFsgnjxS (rd rs1 rs2 : RegIdx) (s : State) : Result :=
  s.signInjectS (.fsgnjxS rd rs1 rs2) rd rs1 rs2 fun a b => signS a ^^^ signS b
/-- R267 -/
def execFsgnjxD (rd rs1 rs2 : RegIdx) (s : State) : Result :=
  s.signInjectD (.fsgnjxD rd rs1 rs2) rd rs1 rs2 fun a b => signD a ^^^ signD b

/-! ### Minimum, maximum, comparison, classification (R268 to R279) -/

/-- R268 -/
def execFminS (rd rs1 rs2 : RegIdx) (s : State) : Result :=
  s.whenAdmitted (hasF s.params) (.fminS rd rs1 rs2) (s.finishS rd (s.single.min (s.readS rs1) (s.readS rs2)))
/-- R269 -/
def execFminD (rd rs1 rs2 : RegIdx) (s : State) : Result :=
  s.whenAdmitted (hasD s.params) (.fminD rd rs1 rs2) (s.finishD rd (s.double.min (s.readD rs1) (s.readD rs2)))
/-- R270 -/
def execFmaxS (rd rs1 rs2 : RegIdx) (s : State) : Result :=
  s.whenAdmitted (hasF s.params) (.fmaxS rd rs1 rs2) (s.finishS rd (s.single.max (s.readS rs1) (s.readS rs2)))
/-- R271 -/
def execFmaxD (rd rs1 rs2 : RegIdx) (s : State) : Result :=
  s.whenAdmitted (hasD s.params) (.fmaxD rd rs1 rs2) (s.finishD rd (s.double.max (s.readD rs1) (s.readD rs2)))
/-- R272 -/
def execFeqS (rd rs1 rs2 : RegIdx) (s : State) : Result :=
  s.whenAdmitted (hasF s.params) (.feqS rd rs1 rs2)
    (s.finishFlagsX rd (bitResult (s.single.eq (s.readS rs1) (s.readS rs2))))
/-- R273 -/
def execFeqD (rd rs1 rs2 : RegIdx) (s : State) : Result :=
  s.whenAdmitted (hasD s.params) (.feqD rd rs1 rs2)
    (s.finishFlagsX rd (bitResult (s.double.eq (s.readD rs1) (s.readD rs2))))
/-- R274 -/
def execFltS (rd rs1 rs2 : RegIdx) (s : State) : Result :=
  s.whenAdmitted (hasF s.params) (.fltS rd rs1 rs2)
    (s.finishFlagsX rd (bitResult (s.single.lt (s.readS rs1) (s.readS rs2))))
/-- R275 -/
def execFltD (rd rs1 rs2 : RegIdx) (s : State) : Result :=
  s.whenAdmitted (hasD s.params) (.fltD rd rs1 rs2)
    (s.finishFlagsX rd (bitResult (s.double.lt (s.readD rs1) (s.readD rs2))))
/-- R276 -/
def execFleS (rd rs1 rs2 : RegIdx) (s : State) : Result :=
  s.whenAdmitted (hasF s.params) (.fleS rd rs1 rs2)
    (s.finishFlagsX rd (bitResult (s.single.le (s.readS rs1) (s.readS rs2))))
/-- R277 -/
def execFleD (rd rs1 rs2 : RegIdx) (s : State) : Result :=
  s.whenAdmitted (hasD s.params) (.fleD rd rs1 rs2)
    (s.finishFlagsX rd (bitResult (s.double.le (s.readD rs1) (s.readD rs2))))
/-- R278 -/
def execFclassS (rd rs1 : RegIdx) (s : State) : Result :=
  s.whenAdmitted (hasF s.params) (.fclassS rd rs1) (s.finishX rd ((s.single.classify (s.readS rs1)).setWidth 32))
/-- R279 -/
def execFclassD (rd rs1 : RegIdx) (s : State) : Result :=
  s.whenAdmitted (hasD s.params) (.fclassD rd rs1) (s.finishX rd ((s.double.classify (s.readD rs1)).setWidth 32))

/-! ### Moves between the register files (R280 to R283) -/

/-- R280 -/
def execFmvSX (rd rs1 : RegIdx) (s : State) : Result :=
  s.whenAdmitted (hasF s.params) (.fmvSX rd rs1) (.next (s.writeS rd (s.readX rs1)).advance)
/-- R281: never admitted (needs XLEN = 64). -/
def execFmvDX (rd rs1 : RegIdx) (s : State) : Result := s.illegal (.fmvDX rd rs1)
/-- R282 -/
def execFmvXS (rd rs1 : RegIdx) (s : State) : Result :=
  s.whenAdmitted (hasF s.params) (.fmvXS rd rs1) (s.finishX rd (s.readLow rs1))
/-- R283: never admitted. -/
def execFmvXD (rd rs1 : RegIdx) (s : State) : Result := s.illegal (.fmvXD rd rs1)

/-! ### Conversions (R284 to R301) -/

/-- R284 -/
def execFcvtDS (rd rs1 : RegIdx) (rm : BitVec 3) (s : State) : Result :=
  s.rounding (hasD s.params) (.fcvtDS rd rs1 rm) rm fun m =>
    s.finishD rd ((numericsOf s.params).widen m (s.readS rs1))
/-- R285 -/
def execFcvtSD (rd rs1 : RegIdx) (rm : BitVec 3) (s : State) : Result :=
  s.rounding (hasD s.params) (.fcvtSD rd rs1 rm) rm fun m =>
    s.finishS rd ((numericsOf s.params).narrow m (s.readD rs1))
/-- R286 -/
def execFcvtSW (rd rs1 : RegIdx) (rm : BitVec 3) (s : State) : Result :=
  s.rounding (hasF s.params) (.fcvtSW rd rs1 rm) rm fun m => s.finishS rd (s.single.ofInt m (s.readX rs1))
/-- R287 -/
def execFcvtDW (rd rs1 : RegIdx) (rm : BitVec 3) (s : State) : Result :=
  s.rounding (hasD s.params) (.fcvtDW rd rs1 rm) rm fun m => s.finishD rd (s.double.ofInt m (s.readX rs1))
/-- R290 -/
def execFcvtSWu (rd rs1 : RegIdx) (rm : BitVec 3) (s : State) : Result :=
  s.rounding (hasF s.params) (.fcvtSWu rd rs1 rm) rm fun m => s.finishS rd (s.single.ofUInt m (s.readX rs1))
/-- R291 -/
def execFcvtDWu (rd rs1 : RegIdx) (rm : BitVec 3) (s : State) : Result :=
  s.rounding (hasD s.params) (.fcvtDWu rd rs1 rm) rm fun m => s.finishD rd (s.double.ofUInt m (s.readX rs1))
/-- R294 -/
def execFcvtWS (rd rs1 : RegIdx) (rm : BitVec 3) (s : State) : Result :=
  s.rounding (hasF s.params) (.fcvtWS rd rs1 rm) rm fun m => s.finishFlagsX rd (s.single.toInt m (s.readS rs1))
/-- R295 -/
def execFcvtWD (rd rs1 : RegIdx) (rm : BitVec 3) (s : State) : Result :=
  s.rounding (hasD s.params) (.fcvtWD rd rs1 rm) rm fun m => s.finishFlagsX rd (s.double.toInt m (s.readD rs1))
/-- R298 -/
def execFcvtWuS (rd rs1 : RegIdx) (rm : BitVec 3) (s : State) : Result :=
  s.rounding (hasF s.params) (.fcvtWuS rd rs1 rm) rm fun m => s.finishFlagsX rd (s.single.toUInt m (s.readS rs1))
/-- R299 -/
def execFcvtWuD (rd rs1 : RegIdx) (rm : BitVec 3) (s : State) : Result :=
  s.rounding (hasD s.params) (.fcvtWuD rd rs1 rm) rm fun m => s.finishFlagsX rd (s.double.toUInt m (s.readD rs1))
/-- R288: never admitted. -/
def execFcvtSL (rd rs1 : RegIdx) (rm : BitVec 3) (s : State) : Result := s.illegal (.fcvtSL rd rs1 rm)
/-- R289: never admitted. -/
def execFcvtDL (rd rs1 : RegIdx) (rm : BitVec 3) (s : State) : Result := s.illegal (.fcvtDL rd rs1 rm)
/-- R292: never admitted. -/
def execFcvtSLu (rd rs1 : RegIdx) (rm : BitVec 3) (s : State) : Result := s.illegal (.fcvtSLu rd rs1 rm)
/-- R293: never admitted. -/
def execFcvtDLu (rd rs1 : RegIdx) (rm : BitVec 3) (s : State) : Result := s.illegal (.fcvtDLu rd rs1 rm)
/-- R296: never admitted. -/
def execFcvtLS (rd rs1 : RegIdx) (rm : BitVec 3) (s : State) : Result := s.illegal (.fcvtLS rd rs1 rm)
/-- R297: never admitted. -/
def execFcvtLD (rd rs1 : RegIdx) (rm : BitVec 3) (s : State) : Result := s.illegal (.fcvtLD rd rs1 rm)
/-- R300: never admitted. -/
def execFcvtLuS (rd rs1 : RegIdx) (rm : BitVec 3) (s : State) : Result := s.illegal (.fcvtLuS rd rs1 rm)
/-- R301: never admitted. -/
def execFcvtLuD (rd rs1 : RegIdx) (rm : BitVec 3) (s : State) : Result := s.illegal (.fcvtLuD rd rs1 rm)

end Sys2Proof.Machine
end

