-- ==== Sys2Proof/Machine/Multiply.lean ====
section
/-! DEFINITION. The M group (44_m_multiply.md R220 to R230), admitted when `EXT_M`. -/

namespace Sys2Proof.Machine

/-- Bits 63 to 32 of an exact product (R220). -/
def highHalf (p : Int) : Word := (BitVec.ofInt 64 p).extractLsb' 32 32

/-- The signed quotient, rounded toward zero, with the values of R230 for a zero divisor and for overflow. -/
def divSigned (a b : Word) : Word :=
  if b = 0#32 then 0xFFFFFFFF#32
  else if a = 0x80000000#32 ∧ b = 0xFFFFFFFF#32 then 0x80000000#32
  else BitVec.ofInt 32 (a.toInt.tdiv b.toInt)

/-- The signed remainder, which has the sign of the dividend (R230). -/
def remSigned (a b : Word) : Word :=
  if b = 0#32 then a
  else if a = 0x80000000#32 ∧ b = 0xFFFFFFFF#32 then 0#32
  else BitVec.ofInt 32 (a.toInt - b.toInt * a.toInt.tdiv b.toInt)

/-- The unsigned quotient (R230). -/
def divUnsigned (a b : Word) : Word := if b = 0#32 then 0xFFFFFFFF#32 else BitVec.ofNat 32 (a.toNat / b.toNat)

/-- The unsigned remainder (R230). -/
def remUnsigned (a b : Word) : Word := if b = 0#32 then a else BitVec.ofNat 32 (a.toNat % b.toNat)

/-- An M instruction: IllegalInstruction unless `EXT_M` (30_encoding.md R104), else the value `op x[rs1] x[rs2]`. -/
def State.mulDiv (s : State) (i : Instr) (op : Word → Word → Word) (rd rs1 rs2 : RegIdx) : Result :=
  s.whenAdmitted s.params.extM i (s.finishX rd (op (s.readX rs1) (s.readX rs2)))

/-- R221 -/
def execMul (rd rs1 rs2 : RegIdx) (s : State) : Result := s.mulDiv (.mul rd rs1 rs2) (fun a b => a * b) rd rs1 rs2
/-- R222: signed times signed. -/
def execMulh (rd rs1 rs2 : RegIdx) (s : State) : Result :=
  s.mulDiv (.mulh rd rs1 rs2) (fun a b => highHalf (a.toInt * b.toInt)) rd rs1 rs2
/-- R223: `x[rs1]` signed, `x[rs2]` unsigned (R229). -/
def execMulhsu (rd rs1 rs2 : RegIdx) (s : State) : Result :=
  s.mulDiv (.mulhsu rd rs1 rs2) (fun a b => highHalf (a.toInt * (b.toNat : Int))) rd rs1 rs2
/-- R224: unsigned times unsigned. -/
def execMulhu (rd rs1 rs2 : RegIdx) (s : State) : Result :=
  s.mulDiv (.mulhu rd rs1 rs2) (fun a b => highHalf ((a.toNat : Int) * (b.toNat : Int))) rd rs1 rs2
/-- R225 -/
def execDiv (rd rs1 rs2 : RegIdx) (s : State) : Result := s.mulDiv (.div rd rs1 rs2) divSigned rd rs1 rs2
/-- R226 -/
def execDivu (rd rs1 rs2 : RegIdx) (s : State) : Result := s.mulDiv (.divu rd rs1 rs2) divUnsigned rd rs1 rs2
/-- R227 -/
def execRem (rd rs1 rs2 : RegIdx) (s : State) : Result := s.mulDiv (.rem rd rs1 rs2) remSigned rd rs1 rs2
/-- R228 -/
def execRemu (rd rs1 rs2 : RegIdx) (s : State) : Result := s.mulDiv (.remu rd rs1 rs2) remUnsigned rd rs1 rs2

end Sys2Proof.Machine
end

