-- ==== Sys2Proof/Machine/System.lean ====
section
/-! DEFINITION. The CSR, environment and fence instructions (43_rv32i_system.md R190 to R209). -/

namespace Sys2Proof.Machine

/-- R191: writes unless the field `rs1` is 00000. -/
def execCsrrc (rd rs1 : RegIdx) (csr : CsrIdx) (s : State) : Result :=
  s.csrAccess (.csrrc rd rs1 csr) rd csr (rs1 != 0#5) true fun old => old &&& ~~~s.readX rs1
/-- R192: writes unless `uimm` is 00000. -/
def execCsrrci (rd : RegIdx) (uimm : BitVec 5) (csr : CsrIdx) (s : State) : Result :=
  s.csrAccess (.csrrci rd uimm csr) rd csr (uimm != 0#5) true fun old => old &&& ~~~zext5 uimm
/-- R193 -/
def execCsrrs (rd rs1 : RegIdx) (csr : CsrIdx) (s : State) : Result :=
  s.csrAccess (.csrrs rd rs1 csr) rd csr (rs1 != 0#5) true fun old => old ||| s.readX rs1
/-- R194 -/
def execCsrrsi (rd : RegIdx) (uimm : BitVec 5) (csr : CsrIdx) (s : State) : Result :=
  s.csrAccess (.csrrsi rd uimm csr) rd csr (uimm != 0#5) true fun old => old ||| zext5 uimm
/-- R195: always writes; with `rd = x0` it skips the read (R190 step 4). -/
def execCsrrw (rd rs1 : RegIdx) (csr : CsrIdx) (s : State) : Result :=
  s.csrAccess (.csrrw rd rs1 csr) rd csr true (rd != 0#5) fun _ => s.readX rs1
/-- R196: always writes; with `rd = x0` it skips the read. -/
def execCsrrwi (rd : RegIdx) (uimm : BitVec 5) (csr : CsrIdx) (s : State) : Result :=
  s.csrAccess (.csrrwi rd uimm csr) rd csr true (rd != 0#5) fun _ => zext5 uimm

/-- R206: `raise Breakpoint(pc)`. -/
def execEbreak (s : State) : Result := s.raise .breakpoint s.pc
/-- R207: `raise EnvironmentCall(0)`. -/
def execEcall (s : State) : Result := s.raise .environmentCall 0#32

/-- R208: only `pc` changes; every other bit of the word is ignored (30_encoding.md R98). -/
def execFence (s : State) : Result := .next s.advance
/-- R209: `stale <- empty`. -/
def execFenceI (s : State) : Result := .next { s with stale := [] }.advance

end Sys2Proof.Machine
end

