-- ==== Sys2Proof/Machine/Fetch.lean ====
section
/-! DEFINITION. Fetch and decode (20_memory.md R59, R62; 00_scope.md R13 steps 1 and 2), and the placing of one
instruction where the next step fetches. -/

namespace Sys2Proof.Machine

/-- What a step finds before it executes: an instruction, or its answer already. -/
inductive Fetched where
  /-- The instruction at `pc`. -/
  | run (i : Instr)
  /-- The step ends here: a trap of the fetch or of the decoder, or a stop. -/
  | done (r : Result)

/-- Is one of the four bytes from `a` up in `stale`? (R62) -/
def State.staleAt (s : State) (a : Word) : Bool := (span a 4).any fun b => s.stale.contains b.toNat

/-- In the order of 60_exceptions.md R403: a run that has ended has no step (R417); X of the four bytes, else
InstructionAccessFault(pc); the model fault StaleFetch(pc); decoding, else IllegalInstruction(inst). -/
def State.fetch (s : State) : Fetched :=
  match s.trap with
  | some t => .done (.fault (.ended t))
  | none =>
    if !s.canFetch s.pc 4 then .done (s.raise .instructionAccessFault s.pc)
    else if s.staleAt s.pc then .done (.fault (.staleFetch s.pc s))
    else
      match decodeWord (s.read32 s.pc) with
      | .ok i => .run i
      | .error _ => .done (s.raise .illegalInstruction (s.read32 s.pc))

/-- The bytes written at consecutive addresses, as a launch places them (70_reset_and_hazards.md R442): no `stale`, no
reservation. -/
def placeBytes (m : Memory) (a : Word) (bs : List Byte) : Memory :=
  match bs with
  | [] => m
  | b :: rest => placeBytes (m.write a.toNat b) (a + 1#32) rest

/-- The memory map with the four bytes from `a` up made fetchable, unchanged where they already are. -/
def fetchableAt (s : State) (a : Word) : List Region :=
  if s.canFetch a 4 then s.params.memMap
  else { base := a, size := 4, r := true, w := false, x := true } :: s.params.memMap

/-- The state with an instruction of the table at `pc`, ready to be fetched: its bytes in memory, not stale, fetchable,
and the run not ended (log 11). From `State.reset` only memory changes. -/
def State.placeInstr (s : State) (nbits w : Nat) : State :=
  { s with
    mem := placeBytes s.mem s.pc (tableBytes nbits w)
    stale := s.stale.filter fun a => !((span s.pc 4).any fun b => b.toNat == a)
    params := { s.params with memMap := fetchableAt s s.pc }
    trap := none }

end Sys2Proof.Machine
end

