-- ==== Sys2Proof/Machine/Step.lean ====
section
/-! DEFINITION. One step of the machine (00_scope.md R13). -/

namespace Sys2Proof.Machine

/-- Fetch, decode, execute (R13). The meaning itself moves `pc`; nothing is added around it. A trap is a next state whose
field `trap` records it (60_exceptions.md R404; log 1). -/
def step (s : State) : Host.Outcome State Fault Refusal :=
  match s.fetch with
  | .run i => exec i s
  | .done r => r

/-- The state in which the next step fetches and runs the instruction of the table whose bits are `w` (log 11). -/
def State.withFetchWord (s : State) (nbits w : Nat) : State := s.placeInstr nbits w

end Sys2Proof.Machine
end

