-- ==== Sys2Proof/Machine/Launch.lean ====
section
/-! DEFINITION. The launch: reset and launch are one event, in which the environment builds the start state
(70_reset_and_hazards.md R440 to R442). `State.reset` is the launch with every parameter at its default. -/

namespace Sys2Proof.Machine

/-- What the environment fixes before the first step: the parameters of 00_scope.md R7 and the launch values of registers,
CSRs and memory (70_reset_and_hazards.md R442, 10_state.md R44). -/
structure Launch where
  /-- `XLEN`; only 32 is accepted (00_scope.md R4). -/
  xlen : Nat
  /-- `HARTS`; only 1 is accepted (60_exceptions.md R413). -/
  harts : Nat
  /-- `TEXT_BASE`; no instruction rule depends on it (70_reset_and_hazards.md R443). -/
  textBase : Word
  /-- `DATA_BASE`; no instruction rule depends on it (R443). -/
  dataBase : Word
  /-- `STACK_TOP`, the launch value of x2 (10_state.md R44). -/
  stackTop : Word
  /-- `RESET_PC` -/
  resetPc : Word
  /-- The parameters that the rules of instructions read. -/
  params : Params
  /-- The device regions of `MEM_MAP`; none is accepted (60_exceptions.md R412). -/
  devices : List Region
  /-- The launch values of x1 to x31; x0 is 0 and x2 is `STACK_TOP` whatever stands here. -/
  x : Vector Word 32
  /-- The launch values of f0 to f31. -/
  f : Vector DWord 32
  /-- `CSR_SET`, but for the windows on `fcsr` (10_state.md R37). -/
  csrs : List (CsrIdx × Csr)
  /-- The program: blocks of instruction words, each with the address of its first word (R442 (2)). -/
  program : List (Word × List Word)
  /-- The program's data: blocks of bytes, each with its lowest address (R442 (1), R44). -/
  image : List (Word × List Byte)
  /-- Does the program use the stack? (R442 (4)) -/
  usesStack : Bool
  /-- What x3 must hold, where the program uses `gp` (R442 (5)). -/
  gp : Option Word
  /-- What x4 must hold, where the program uses `tp` (R442 (5)). -/
  tp : Option Word
  /-- The address that the environment controls and x1 must hold, where the program returns with `ret` (R442 (6)). -/
  returnTo : Option Word
  deriving DecidableEq, Repr

/-- The launch with every parameter at its default and nothing loaded (00_scope.md R7; logs 2 to 5). -/
def defaultLaunch : Launch :=
  { xlen := 32, harts := 1, textBase := defaultTextBase, dataBase := defaultDataBase, stackTop := defaultStackTop,
    resetPc := defaultResetPc, params := defaultParams, devices := [], x := Vector.replicate 32 0#32, f := defaultF,
    csrs := [], program := [], image := [], usesStack := false, gp := none, tp := none, returnTo := none }

/-- Blocks of bytes in memory, later blocks over earlier ones (R442 (2)); nothing becomes stale. -/
def placeImage (m : Memory) (image : List (Word × List Byte)) : Memory :=
  match image with
  | [] => m
  | (a, bs) :: rest => placeImage (placeBytes m a bs) rest

/-- Everything the launch puts in memory: the data, then the program, its words little-endian (R442 (2)). -/
def Launch.blocks (l : Launch) : List (Word × List Byte) :=
  l.image ++ l.program.map fun b => (b.1, b.2.flatMap bytes32)

/-- The f registers as FLEN wide values in their slots: the upper half is not used when FLEN is 32 (10_state.md R33; log 15). -/
def launchF (p : Params) (f : Vector DWord 32) : Vector DWord 32 :=
  if hasD p then f else f.map fun v => 0#32 ++ v.setWidth 32

/-- The start state of a launch (10_state.md R44): `fcsr`, `stale` and `reservation` have the values R44 fixes. -/
def Launch.start (l : Launch) : State :=
  { x := (l.x.set 0 0#32).set 2 l.stackTop
    pc := l.resetPc
    f := launchF l.params l.f
    fcsr := 0#32
    csrs := l.csrs
    mem := placeImage [] l.blocks
    stale := []
    reservation := none
    params := l.params
    draws := 0
    trap := none }

/-- The configurations that are refused before any step (60_exceptions.md R416); every other launch has its start state. -/
def launch (l : Launch) : Result :=
  if l.harts ≠ 1 then .refused (.unsupportedHarts l.harts)
  else if l.xlen ≠ 32 then .refused (.unsupportedXlen l.xlen)
  else
    match l.devices with
    | d :: _ => .refused (.deviceRegion d.base)
    | [] => .next l.start

/-- A power of two that is at least 4: the legal `RESERVATION_GRANULE` (46_a_atomic.md R354, 92_eei_decisions.md D27). -/
def legalGranule (n : Nat) : Bool := decide (4 ≤ n) && 2 ^ n.log2 == n

/-- The parameters are legal: `EXT_D` needs `EXT_F` (00_scope.md R3), the granule is a power of two (D27). -/
def legalParams (p : Params) : Bool := (!p.extD || p.extF) && legalGranule p.granule

/-- The instruction words of a block, each with its address. -/
def blockWords (a : Word) (ws : List Word) : List (Word × Word) :=
  match ws with
  | [] => []
  | w :: rest => (a, w) :: blockWords (a + 4#32) rest

/-- The program's instruction words, each with its address. -/
def Launch.programWords (l : Launch) : List (Word × Word) := l.program.flatMap fun b => blockWords b.1 b.2

/-- R442 (1), (2): an instruction word stands at a multiple of 4, in a region with X, and memory holds it there. -/
def Launch.wordPlaced (l : Launch) (p : Word × Word) : Bool :=
  aligned p.1 4 && l.start.canFetch p.1 4 && l.start.read32 p.1 == p.2

/-- R442 (1): the bytes of a data block lie in regions with R and W. -/
def Launch.dataMapped (l : Launch) (b : Word × List Byte) : Bool :=
  l.start.canRead b.1 b.2.length && l.start.canWrite b.1 b.2.length

/-- Inside a region, or at its upper end (R442 (4)). -/
def insideOrAtEnd (r : Region) (a : Word) : Bool := decide (0 < r.size ∧ (a - r.base).toNat ≤ r.size)

/-- R442 (4): `STACK_TOP` is inside or at the upper end of a region with R and W. -/
def Launch.stackMapped (l : Launch) : Bool := l.params.memMap.any fun r => r.r && r.w && insideOrAtEnd r l.stackTop

/-- R442 (5), (6): a register that the program relies on holds what it must. -/
def Launch.holds (l : Launch) (r : RegIdx) (v : Option Word) : Bool :=
  match v with
  | some w => l.start.readX r == w
  | none => true

/-- What the environment must see to before the first step (70_reset_and_hazards.md R442, in its order): (1) legal
parameters, a region with X for the program and regions with R and W for its data; (2) every instruction word in memory;
(3) `pc` at one of them; (4) `STACK_TOP` a multiple of 16, and in its region where the stack is used; (5), (6) `gp`, `tp`
and `ra` where they are relied on. (7) and the empty `stale` of (2) are how `Launch.start` is. -/
def Launch.meetsRequirements (l : Launch) : Bool :=
  legalParams l.params && l.programWords.all l.wordPlaced && l.image.all l.dataMapped &&
    l.programWords.any (fun p => p.1 == l.resetPc) && aligned l.stackTop 16 && (!l.usesStack || l.stackMapped) &&
    l.holds 3#5 l.gp && l.holds 4#5 l.tp && l.holds 1#5 l.returnTo

end Sys2Proof.Machine
end

