-- ==== Sys2Proof/Safety.lean ====
section
/-! DEFINITION. The terms in which claims speak: the invariant of the machine, the ways a step can end, what of a state
stays and what changes, when an access is allowed, and which rows a configuration admits. They are written from the spec
and not over the operations of Ops.lean wherever the spec gives words of its own. -/

namespace Sys2Proof

/-! ### Which rows a configuration admits (30_encoding.md R103, R104) -/

/-- The groups of 00_scope.md R3, with the rows that need XLEN = 64 as a group of their own. -/
inductive Group where
  | base
  | m
  | a
  | f
  | d
  | needs64
  deriving DecidableEq, Repr

/-- The group of a row (00_scope.md R2, R3; 30_encoding.md R100 to R102). -/
def Instr.group (i : Instr) : Group :=
  match i with
  | .add _ _ _ => .base
  | .addi _ _ _ => .base
  | .and _ _ _ => .base
  | .andi _ _ _ => .base
  | .auipc _ _ => .base
  | .lui _ _ => .base
  | .or _ _ _ => .base
  | .ori _ _ _ => .base
  | .sll _ _ _ => .base
  | .slli _ _ _ => .base
  | .slt _ _ _ => .base
  | .slti _ _ _ => .base
  | .sltiu _ _ _ => .base
  | .sltu _ _ _ => .base
  | .sra _ _ _ => .base
  | .srai _ _ _ => .base
  | .srl _ _ _ => .base
  | .srli _ _ _ => .base
  | .sub _ _ _ => .base
  | .xor _ _ _ => .base
  | .xori _ _ _ => .base
  | .beq _ _ _ => .base
  | .bge _ _ _ => .base
  | .bgeu _ _ _ => .base
  | .blt _ _ _ => .base
  | .bltu _ _ _ => .base
  | .bne _ _ _ => .base
  | .jal _ _ => .base
  | .jalr _ _ _ => .base
  | .lb _ _ _ => .base
  | .lbu _ _ _ => .base
  | .lh _ _ _ => .base
  | .lhu _ _ _ => .base
  | .lw _ _ _ => .base
  | .sb _ _ _ => .base
  | .sh _ _ _ => .base
  | .sw _ _ _ => .base
  | .csrrc _ _ _ => .base
  | .csrrci _ _ _ => .base
  | .csrrs _ _ _ => .base
  | .csrrsi _ _ _ => .base
  | .csrrw _ _ _ => .base
  | .csrrwi _ _ _ => .base
  | .ebreak => .base
  | .ecall => .base
  | .fence _ _ _ => .base
  | .fenceI _ _ _ => .base
  | .mul _ _ _ => .m
  | .mulh _ _ _ => .m
  | .mulhsu _ _ _ => .m
  | .mulhu _ _ _ => .m
  | .div _ _ _ => .m
  | .divu _ _ _ => .m
  | .rem _ _ _ => .m
  | .remu _ _ _ => .m
  | .flw _ _ _ => .f
  | .fld _ _ _ => .d
  | .fsw _ _ _ => .f
  | .fsd _ _ _ => .d
  | .faddS _ _ _ _ => .f
  | .faddD _ _ _ _ => .d
  | .fsubS _ _ _ _ => .f
  | .fsubD _ _ _ _ => .d
  | .fmulS _ _ _ _ => .f
  | .fmulD _ _ _ _ => .d
  | .fdivS _ _ _ _ => .f
  | .fdivD _ _ _ _ => .d
  | .fsqrtS _ _ _ => .f
  | .fsqrtD _ _ _ => .d
  | .fmaddS _ _ _ _ _ => .f
  | .fmaddD _ _ _ _ _ => .d
  | .fmsubS _ _ _ _ _ => .f
  | .fmsubD _ _ _ _ _ => .d
  | .fnmsubS _ _ _ _ _ => .f
  | .fnmsubD _ _ _ _ _ => .d
  | .fnmaddS _ _ _ _ _ => .f
  | .fnmaddD _ _ _ _ _ => .d
  | .fsgnjS _ _ _ => .f
  | .fsgnjD _ _ _ => .d
  | .fsgnjnS _ _ _ => .f
  | .fsgnjnD _ _ _ => .d
  | .fsgnjxS _ _ _ => .f
  | .fsgnjxD _ _ _ => .d
  | .fminS _ _ _ => .f
  | .fminD _ _ _ => .d
  | .fmaxS _ _ _ => .f
  | .fmaxD _ _ _ => .d
  | .feqS _ _ _ => .f
  | .feqD _ _ _ => .d
  | .fltS _ _ _ => .f
  | .fltD _ _ _ => .d
  | .fleS _ _ _ => .f
  | .fleD _ _ _ => .d
  | .fclassS _ _ => .f
  | .fclassD _ _ => .d
  | .fmvSX _ _ => .f
  | .fmvDX _ _ => .needs64
  | .fmvXS _ _ => .f
  | .fmvXD _ _ => .needs64
  | .fcvtDS _ _ _ => .d
  | .fcvtSD _ _ _ => .d
  | .fcvtSW _ _ _ => .f
  | .fcvtDW _ _ _ => .d
  | .fcvtSL _ _ _ => .needs64
  | .fcvtDL _ _ _ => .needs64
  | .fcvtSWu _ _ _ => .f
  | .fcvtDWu _ _ _ => .d
  | .fcvtSLu _ _ _ => .needs64
  | .fcvtDLu _ _ _ => .needs64
  | .fcvtWS _ _ _ => .f
  | .fcvtWD _ _ _ => .d
  | .fcvtLS _ _ _ => .needs64
  | .fcvtLD _ _ _ => .needs64
  | .fcvtWuS _ _ _ => .f
  | .fcvtWuD _ _ _ => .d
  | .fcvtLuS _ _ _ => .needs64
  | .fcvtLuD _ _ _ => .needs64
  | .amoaddW _ _ _ _ _ => .a
  | .amoaddD _ _ _ _ _ => .needs64
  | .amoandW _ _ _ _ _ => .a
  | .amoandD _ _ _ _ _ => .needs64
  | .amomaxW _ _ _ _ _ => .a
  | .amomaxD _ _ _ _ _ => .needs64
  | .amomaxuW _ _ _ _ _ => .a
  | .amomaxuD _ _ _ _ _ => .needs64
  | .amominW _ _ _ _ _ => .a
  | .amominD _ _ _ _ _ => .needs64
  | .amominuW _ _ _ _ _ => .a
  | .amominuD _ _ _ _ _ => .needs64
  | .amoorW _ _ _ _ _ => .a
  | .amoorD _ _ _ _ _ => .needs64
  | .amoswapW _ _ _ _ _ => .a
  | .amoswapD _ _ _ _ _ => .needs64
  | .amoxorW _ _ _ _ _ => .a
  | .amoxorD _ _ _ _ _ => .needs64
  | .lrW _ _ _ _ => .a
  | .lrD _ _ _ _ => .needs64
  | .scW _ _ _ _ _ => .a
  | .scD _ _ _ _ _ => .needs64

/-- Does the configuration admit a group? `EXT_D` needs `EXT_F`; what needs XLEN = 64 is never admitted (R104). -/
def Group.admitted (g : Group) (p : Params) : Bool :=
  match g with
  | .base => true
  | .m => p.extM
  | .a => p.extA
  | .f => p.extF
  | .d => p.extF && p.extD
  | .needs64 => false

/-- The six CSR instructions (43_rv32i_system.md R190). -/
def Instr.isCsr (i : Instr) : Bool :=
  match i with
  | .csrrc _ _ _ | .csrrci _ _ _ | .csrrs _ _ _ | .csrrsi _ _ _ | .csrrw _ _ _ | .csrrwi _ _ _ => true
  | _ => false

/-- The instructions that write memory: the stores, sc and the amo instructions (20_memory.md R57). -/
def Instr.writesMemory (i : Instr) : Bool :=
  match i with
  | .sb _ _ _ | .sh _ _ _ | .sw _ _ _ | .fsw _ _ _ | .fsd _ _ _ => true
  | .amoaddW _ _ _ _ _ | .amoandW _ _ _ _ _ | .amomaxW _ _ _ _ _ | .amomaxuW _ _ _ _ _ | .amominW _ _ _ _ _ => true
  | .amominuW _ _ _ _ _ | .amoorW _ _ _ _ _ | .amoswapW _ _ _ _ _ | .amoxorW _ _ _ _ _ | .scW _ _ _ _ _ => true
  | _ => false

/-- The instructions that write `pc`: the branches, jal and jalr (10_state.md R26). -/
def Instr.writesPc (i : Instr) : Bool :=
  match i with
  | .beq _ _ _ | .bne _ _ _ | .blt _ _ _ | .bge _ _ _ | .bltu _ _ _ | .bgeu _ _ _ | .jal _ _ | .jalr _ _ _ => true
  | _ => false

/-- The rounding-mode field of an instruction that has one. -/
def Instr.rmField (i : Instr) : Option (BitVec 3) :=
  match i with
  | .faddS _ _ _ rm | .faddD _ _ _ rm | .fsubS _ _ _ rm | .fsubD _ _ _ rm => some rm
  | .fmulS _ _ _ rm | .fmulD _ _ _ rm | .fdivS _ _ _ rm | .fdivD _ _ _ rm => some rm
  | .fsqrtS _ _ rm | .fsqrtD _ _ rm | .fmaddS _ _ _ _ rm | .fmaddD _ _ _ _ rm => some rm
  | .fmsubS _ _ _ _ rm | .fmsubD _ _ _ _ rm | .fnmsubS _ _ _ _ rm | .fnmsubD _ _ _ _ rm => some rm
  | .fnmaddS _ _ _ _ rm | .fnmaddD _ _ _ _ rm | .fcvtDS _ _ rm | .fcvtSD _ _ rm => some rm
  | .fcvtSW _ _ rm | .fcvtDW _ _ rm | .fcvtSL _ _ rm | .fcvtDL _ _ rm => some rm
  | .fcvtSWu _ _ rm | .fcvtDWu _ _ rm | .fcvtSLu _ _ rm | .fcvtDLu _ _ rm => some rm
  | .fcvtWS _ _ rm | .fcvtWD _ _ rm | .fcvtLS _ _ rm | .fcvtLD _ _ rm => some rm
  | .fcvtWuS _ _ rm | .fcvtWuD _ _ rm | .fcvtLuS _ _ rm | .fcvtLuD _ _ rm => some rm
  | _ => none

/-- The word of `i` is in the row of spec/opcode_table.json with this mask and match value. -/
def Instr.inRow (i : Instr) (mask pattern : Word) : Prop := encode i &&& mask = pattern

end Sys2Proof

namespace Sys2Proof.Machine

/-- The stored x0 is 0 (10_state.md R22, R45). -/
def State.zeroKept (s : State) : Prop := s.x.get 0 = 0#32

/-- `pc` is a multiple of 4 (10_state.md R27). -/
def State.pcAligned (s : State) : Prop := s.pc.toNat % 4 = 0

/-- Bits 31 to 8 of `fcsr` are zero (10_state.md R35). -/
def State.fcsrKept (s : State) : Prop := s.fcsr.extractLsb' 8 24 = 0#24

/-- The reservation is a granule address (10_state.md R41). -/
def State.reservationKept (s : State) : Prop :=
  ∀ a, s.reservation = some a → a.toNat % s.params.granule = 0

/-- The upper halves of the f slots are zero when FLEN is not 64 (10_state.md R33; log 15). -/
def State.slotsKept (s : State) : Prop :=
  hasD s.params = false → ∀ r : RegIdx, (s.readD r).extractLsb' 32 32 = 0#32

/-- The invariant that every step keeps. -/
structure State.Inv (s : State) : Prop where
  zero : s.zeroKept
  pc : s.pcAligned
  fcsr : s.fcsrKept
  mem : Memory.wf s.mem
  stale : staleWf s.stale
  reservation : s.reservationKept
  slots : s.slotsKept

/-! ### The ways a step can end -/

/-- A step that goes on: the outcome `Next` of the spec (60_exceptions.md R417). -/
def State.continues (s : State) : Prop := ∃ t, step s = .next t ∧ t.trap = none

/-- A step that ends the run with a trap: the outcome `Trap(E, info, t)` of the spec (60_exceptions.md R404). -/
def State.traps (s : State) (e : Cause) (info : Word) (t : State) : Prop :=
  s.trap = none ∧ step s = .next t ∧ t.trap = some { cause := e, info := info }

/-- A state from which no step ends in the model fault `StaleFetch`: a program proved correct "must be shown never to
reach one" (60_exceptions.md R416). -/
def State.neverStale (s : State) : Prop :=
  ∀ k pc t, Sys2Proof.core.run k s ≠ .fault (.staleFetch pc t)

/-- `i` has a next state at `s`, and `post` holds of it. -/
def State.gives (s : State) (i : Instr) (post : State → Prop) : Prop := ∃ t, exec i s = .next t ∧ post t

/-! ### What stays -/

/-- Every x register reads as before. -/
def State.keepsX (s t : State) : Prop := ∀ r, t.readX r = s.readX r
/-- Every f register holds what it held. -/
def State.keepsF (s t : State) : Prop := ∀ r, t.readD r = s.readD r
/-- `fcsr` and every other CSR are unchanged. -/
def State.keepsCsrs (s t : State) : Prop := t.fcsr = s.fcsr ∧ t.csrs = s.csrs
/-- Every byte of memory reads as before. -/
def State.keepsMem (s t : State) : Prop := ∀ a, t.byte a = s.byte a
/-- The stale-code set and the reservation are unchanged. -/
def State.keepsHidden (s t : State) : Prop := t.stale = s.stale ∧ t.reservation = s.reservation
/-- The parameters, the count of draws and the record of a trap are unchanged. -/
def State.keepsModel (s t : State) : Prop := t.params = s.params ∧ t.draws = s.draws ∧ t.trap = s.trap

/-! ### What changes -/

/-- `x[rd] <- v` and no other x register changes; x0 never does (10_state.md R22). -/
def State.setsX (s t : State) (rd : RegIdx) (v : Word) : Prop :=
  ∀ r, t.readX r = if r = rd ∧ r ≠ 0#5 then v else s.readX r

/-- `f[rd] <- v` and no other f register changes. -/
def State.setsF (s t : State) (rd : RegIdx) (v : DWord) : Prop := ∀ r, t.readD r = if r = rd then v else s.readD r

/-- `fflags <- fflags | fl`; `frm` and what `fcsr` reads elsewhere stay (45_fd_float.md R314). -/
def State.raisesFlags (s t : State) (fl : FpFlags) : Prop :=
  t.readFcsr = s.readFcsr ||| fl.setWidth 32 ∧ t.csrs = s.csrs

/-- The address of the granule of an address: `a` rounded down to a multiple of `RESERVATION_GRANULE` (10_state.md R41). -/
def granuleOf (p : Params) (a : Word) : Word := BitVec.ofNat 32 (p.granule * (a.toNat / p.granule))

/-- `MemWrite` of the bytes `bs` from `a` up: those bytes, and every other byte as before; the addresses join `stale`; a
reservation of a granule that is written to is cleared, any other stays (20_memory.md R52, R62; 46_a_atomic.md R354). -/
def State.stores (s t : State) (a : Word) (bs : List Byte) : Prop :=
  (∀ b, (∀ k < bs.length, b ≠ a + BitVec.ofNat 32 k) → t.byte b = s.byte b) ∧
  (∀ k < bs.length, some (t.byte (a + BitVec.ofNat 32 k)) = bs[k]?) ∧
  (∀ c, c ∈ t.stale ↔ c ∈ s.stale ∨ ∃ k < bs.length, c = (a + BitVec.ofNat 32 k).toNat) ∧
  (∀ g, t.reservation = some g ↔
    s.reservation = some g ∧ ∀ k < bs.length, granuleOf s.params (a + BitVec.ofNat 32 k) ≠ g)

/-- Only `x[rd]` and `pc` change: `x[rd] <- v`, `pc <- pc + 4`. -/
def State.onlyX (s t : State) (rd : RegIdx) (v : Word) : Prop :=
  s.setsX t rd v ∧ t.pc = s.pc + 4#32 ∧ s.keepsF t ∧ s.keepsCsrs t ∧ s.keepsMem t ∧ s.keepsHidden t ∧ s.keepsModel t

/-- Only `pc` changes. -/
def State.onlyPc (s t : State) (target : Word) : Prop :=
  s.keepsX t ∧ t.pc = target ∧ s.keepsF t ∧ s.keepsCsrs t ∧ s.keepsMem t ∧ s.keepsHidden t ∧ s.keepsModel t

/-- Only `x[rd]` and `pc` change: `x[rd] <- pc + 4`, `pc <- target`. -/
def State.onlyLink (s t : State) (rd : RegIdx) (target : Word) : Prop :=
  s.setsX t rd (s.pc + 4#32) ∧ t.pc = target ∧ s.keepsF t ∧ s.keepsCsrs t ∧ s.keepsMem t ∧ s.keepsHidden t ∧
    s.keepsModel t

/-- Only memory changes, with `stale`, the reservation and `pc`. -/
def State.onlyStores (s t : State) (a : Word) (bs : List Byte) : Prop :=
  s.keepsX t ∧ t.pc = s.pc + 4#32 ∧ s.keepsF t ∧ s.keepsCsrs t ∧ s.stores t a bs ∧ s.keepsModel t

/-- Only `f[rd]`, the flags and `pc` change. -/
def State.onlyF (s t : State) (rd : RegIdx) (v : DWord) (fl : FpFlags) : Prop :=
  s.keepsX t ∧ t.pc = s.pc + 4#32 ∧ s.setsF t rd v ∧ s.raisesFlags t fl ∧ s.keepsMem t ∧ s.keepsHidden t ∧ s.keepsModel t

/-- Only `f[rd]` and `pc` change: no flag is touched. -/
def State.onlyFMove (s t : State) (rd : RegIdx) (v : DWord) : Prop :=
  s.keepsX t ∧ t.pc = s.pc + 4#32 ∧ s.setsF t rd v ∧ s.keepsCsrs t ∧ s.keepsMem t ∧ s.keepsHidden t ∧ s.keepsModel t

/-- Only `x[rd]`, the flags and `pc` change. -/
def State.onlyFlagsX (s t : State) (rd : RegIdx) (v : Word) (fl : FpFlags) : Prop :=
  s.setsX t rd v ∧ t.pc = s.pc + 4#32 ∧ s.keepsF t ∧ s.raisesFlags t fl ∧ s.keepsMem t ∧ s.keepsHidden t ∧ s.keepsModel t

/-- The trap `E(info)` has been taken: the reservation is gone, the record is made, and everything else, `pc` too, is as
before (60_exceptions.md R404). -/
def State.trapped (s t : State) (e : Cause) (info : Word) : Prop :=
  s.keepsX t ∧ t.pc = s.pc ∧ s.keepsF t ∧ s.keepsCsrs t ∧ s.keepsMem t ∧ t.stale = s.stale ∧ t.reservation = none ∧
    t.params = s.params ∧ t.draws = s.draws ∧ t.trap = some { cause := e, info := info }

/-! ### When an access is allowed (20_memory.md R55, R58) -/

/-- Every byte of the access exists in `MEM_MAP` with R. -/
abbrev State.readable (s : State) (a : Word) (n : Nat) : Prop :=
  ∀ k < n, ∃ r ∈ s.params.memMap, r.r = true ∧ (a + BitVec.ofNat 32 k - r.base).toNat < r.size

/-- Every byte of the access exists in `MEM_MAP` with W. -/
abbrev State.writable (s : State) (a : Word) (n : Nat) : Prop :=
  ∀ k < n, ∃ r ∈ s.params.memMap, r.w = true ∧ (a + BitVec.ofNat 32 k - r.base).toNat < r.size

/-- Every byte of the access exists in `MEM_MAP` with X. -/
abbrev State.fetchable (s : State) (a : Word) (n : Nat) : Prop :=
  ∀ k < n, ∃ r ∈ s.params.memMap, r.x = true ∧ (a + BitVec.ofNat 32 k - r.base).toNat < r.size

/-- The alignment check passes: the access is aligned, or `MISALIGNED_DATA` is `support`. -/
abbrev State.alignmentPasses (s : State) (a : Word) (n : Nat) : Prop :=
  a.toNat % n = 0 ∨ s.params.misaligned = .support

/-- One of the four bytes of the instruction at `pc` is in `stale` (R62). -/
abbrev State.fetchIsStale (s : State) : Prop := ∃ k < 4, (s.pc + BitVec.ofNat 32 k).toNat ∈ s.stale

/-! ### Rounding modes (45_fd_float.md R313) -/

/-- The number of a rounding mode. -/
def modeNumber (m : RoundingMode) : BitVec 3 :=
  match m with
  | .nearestEven => 0b000#3
  | .towardZero => 0b001#3
  | .down => 0b010#3
  | .up => 0b011#3
  | .nearestAway => 0b100#3

/-- The effective mode of an `rm` field is `m`: `rm` names it, or `rm` is 111 and `frm` names it. -/
abbrev State.roundsIn (s : State) (rm : BitVec 3) (m : RoundingMode) : Prop :=
  rm = modeNumber m ∨ (rm = 0b111#3 ∧ s.frm = modeNumber m)

/-- The `rm` field is reserved: 101, 110, or 111 while `frm` is 101 to 111. -/
abbrev State.rmReserved (s : State) (rm : BitVec 3) : Prop :=
  rm = 0b101#3 ∨ rm = 0b110#3 ∨ (rm = 0b111#3 ∧ 5 ≤ s.frm.toNat)

/-! ### What the shapes of instructions do -/

/-- A branch with the offset `off` (41_rv32i_control.md R150, R151): taken to an aligned target, taken to a misaligned one,
not taken. -/
def State.branchesWhen (s : State) (i : Instr) (off : BitVec 13) (cond : Prop) : Prop :=
  (cond → (s.pc + off.signExtend 32).toNat % 4 = 0 → s.gives i fun t => s.onlyPc t (s.pc + off.signExtend 32)) ∧
  (cond → (s.pc + off.signExtend 32).toNat % 4 ≠ 0 →
    s.gives i fun t => s.trapped t .instructionAddressMisaligned (s.pc + off.signExtend 32)) ∧
  (¬ cond → s.gives i fun t => s.onlyPc t (s.pc + 4#32))

/-- A jump to `target` (R150, R158, R159): to an aligned target it links and jumps, to a misaligned one it traps. -/
def State.jumpsTo (s : State) (i : Instr) (rd : RegIdx) (target : Word) : Prop :=
  (target.toNat % 4 = 0 → s.gives i fun t => s.onlyLink t rd target) ∧
  (target.toNat % 4 ≠ 0 → s.gives i fun t => s.trapped t .instructionAddressMisaligned target)

/-- `i` takes the trap InstructionAddressMisaligned (R150). -/
def State.misaligns (s : State) (i : Instr) : Prop :=
  s.gives i fun t => ∃ target, t.trap = some { cause := .instructionAddressMisaligned, info := target }

/-- A load of `n` bytes at `a` (42_rv32i_loadstore.md R171): first the alignment check, then existence and R. -/
def State.loadsFrom (s : State) (i : Instr) (a : Word) (n : Nat) (post : State → Prop) : Prop :=
  (¬ s.alignmentPasses a n → s.gives i fun t => s.trapped t .loadAddressMisaligned a) ∧
  (s.alignmentPasses a n → ¬ s.readable a n → s.gives i fun t => s.trapped t .loadAccessFault a) ∧
  (s.alignmentPasses a n → s.readable a n → s.gives i post)

/-- A store of the bytes `bs` at `a` (R180): first the alignment check, then existence and W. -/
def State.storesTo (s : State) (i : Instr) (a : Word) (bs : List Byte) : Prop :=
  (¬ s.alignmentPasses a bs.length → s.gives i fun t => s.trapped t .storeAddressMisaligned a) ∧
  (s.alignmentPasses a bs.length → ¬ s.writable a bs.length → s.gives i fun t => s.trapped t .storeAccessFault a) ∧
  (s.alignmentPasses a bs.length → s.writable a bs.length → s.gives i fun t => s.onlyStores t a bs)

/-- The four bytes of a word as it stands in memory, the lowest address first (20_memory.md R52). -/
def littleEndian (v : Word) : List Byte :=
  [BitVec.ofNat 8 v.toNat, BitVec.ofNat 8 (v.toNat / 2 ^ 8), BitVec.ofNat 8 (v.toNat / 2 ^ 16),
    BitVec.ofNat 8 (v.toNat / 2 ^ 24)]

/-- The word that four bytes of memory make (R52). -/
def State.wordAt (s : State) (a : Word) : Word :=
  BitVec.ofNat 32 ((s.byte a).toNat + 2 ^ 8 * (s.byte (a + 1#32)).toNat + 2 ^ 16 * (s.byte (a + 2#32)).toNat +
    2 ^ 24 * (s.byte (a + 3#32)).toNat)

/-- A read-modify-write (46_a_atomic.md R330, R331): alignment whatever `MISALIGNED_DATA`, then R and W of every byte, then
the old word to `x[rd]` and `new` to memory. -/
def State.modifies (s : State) (i : Instr) (rd : RegIdx) (a : Word) (new : Word) : Prop :=
  (a.toNat % 4 ≠ 0 → s.gives i fun t => s.trapped t .storeAddressMisaligned a) ∧
  (a.toNat % 4 = 0 → ¬ (s.readable a 4 ∧ s.writable a 4) → s.gives i fun t => s.trapped t .storeAccessFault a) ∧
  (a.toNat % 4 = 0 → s.readable a 4 → s.writable a 4 →
    s.gives i fun t => s.setsX t rd (s.wordAt a) ∧ t.pc = s.pc + 4#32 ∧ s.keepsF t ∧ s.keepsCsrs t ∧
      s.stores t a (littleEndian new) ∧ s.keepsModel t)

/-! ### Control and status registers (10_state.md R35, R38) -/

/-- Two numbers that reach the same register: equal, or two of the windows on `fcsr`. -/
abbrev sameCsr (p : Params) (c d : CsrIdx) : Prop :=
  c = d ∨ (p.extF = true ∧ (c = 0x001#12 ∨ c = 0x002#12 ∨ c = 0x003#12) ∧ (d = 0x001#12 ∨ d = 0x002#12 ∨ d = 0x003#12))

/-- The number reaches one of the windows on `fcsr`. -/
abbrev isWindow (p : Params) (c : CsrIdx) : Prop := p.extF = true ∧ (c = 0x001#12 ∨ c = 0x002#12 ∨ c = 0x003#12)

/-- What a CSR instruction does to the existing CSR `c` with the record `r` (43_rv32i_system.md R190 steps 4 to 6): the old
value, a free draw where the CSR is volatile, goes to `x[rd]`; the new value goes in under the write mask when it writes;
`reads` says whether a draw is used up. `fcsr` changes only through a window, each window changes its own bits, and a window
changes nothing else. -/
def State.accessesCsr (s t : State) (rd : RegIdx) (c : CsrIdx) (r : Csr) (writes reads : Prop) (new : Word → Word) : Prop :=
  ∃ old, old = (if r.volatile then Config.csrDraw s.draws else r.value) ∧ s.setsX t rd old ∧ t.pc = s.pc + 4#32 ∧
    s.keepsF t ∧ s.keepsMem t ∧ s.keepsHidden t ∧ t.params = s.params ∧ t.trap = s.trap ∧
    (writes → t.csr c = some { r with value := (r.value &&& ~~~r.wmask) ||| (new old &&& r.wmask) }) ∧
    (¬ writes → s.keepsCsrs t) ∧
    (∀ d, ¬ sameCsr s.params c d → t.csr d = s.csr d) ∧
    (¬ isWindow s.params c → t.fcsr = s.fcsr) ∧ (isWindow s.params c → t.csrs = s.csrs) ∧
    (isWindow s.params c → c = 0x001#12 → t.frm = s.frm) ∧ (isWindow s.params c → c = 0x002#12 → t.fflags = s.fflags) ∧
    (r.volatile = true ∧ reads → t.draws = s.draws + 1) ∧ (¬ (r.volatile = true ∧ reads) → t.draws = s.draws)

/-- A CSR instruction (R190): an absent CSR, a write to a read-only one, else the access. -/
def State.runsCsr (s : State) (i : Instr) (rd : RegIdx) (c : CsrIdx) (writes reads : Prop) (new : Word → Word) : Prop :=
  (s.csr c = none → s.gives i fun t => s.trapped t .illegalInstruction (encode i)) ∧
  (∀ r, s.csr c = some r → writes → r.writable = false →
    s.gives i fun t => s.trapped t .illegalInstruction (encode i)) ∧
  (∀ r, s.csr c = some r → (writes → r.writable = true) →
    s.gives i fun t => s.accessesCsr t rd c r writes reads new)

/-! ### A launch (70_reset_and_hazards.md R442) -/

/-- The instruction word of the launch's program at an address: the block it stands in and its place there. -/
def Launch.hasWord (l : Launch) (a w : Word) : Prop :=
  ∃ b ∈ l.program, ∃ k < b.2.length, a = b.1 + BitVec.ofNat 32 (4 * k) ∧ b.2[k]? = some w

/-- The byte that a launch places at an address: that of the last place, in the last block, that reaches it. -/
def placedAt (blocks : List (Word × List Byte)) (a : Word) (v : Byte) : Prop :=
  ∃ before b after, blocks = before ++ b :: after ∧ ∃ k < b.2.length, a = b.1 + BitVec.ofNat 32 k ∧ b.2[k]? = some v ∧
    (∀ j < b.2.length, k < j → a ≠ b.1 + BitVec.ofNat 32 j) ∧ ∀ c ∈ after, ∀ j < c.2.length, a ≠ c.1 + BitVec.ofNat 32 j

/-! ### Single values in the f registers (10_state.md R34, 45_fd_float.md R312) -/

/-- `unbox(f[i])`: with FLEN = 64 the low 32 bits where the upper 32 are all ones, else the canonical NaN; with FLEN = 32
the value. FLEN is 64 when `EXT_D` (10_state.md R33). -/
def State.unboxed (s : State) (r : RegIdx) : Word :=
  if s.params.extD = true ∧ (s.readD r).toNat / 2 ^ 32 ≠ 0xFFFFFFFF then 0x7FC00000#32 else BitVec.ofNat 32 (s.readD r).toNat

/-- `box(v)`: with FLEN = 64 the upper half is all ones. With FLEN = 32 there is none, and the model's slot has 0 there
(log 15). -/
def boxed (p : Params) (v : Word) : DWord := (if p.extD then 0xFFFFFFFF#32 else 0#32) ++ v

/-! ### Floating-point patterns (45_fd_float.md R310, R315) -/

/-- A single NaN: the exponent all ones and a fraction other than 0. -/
abbrev nanS (a : Word) : Prop := 0x7F800000 < a.toNat % 2 ^ 31
/-- A signaling single NaN: the top fraction bit is 0. -/
abbrev signalingS (a : Word) : Prop := nanS a ∧ a.toNat % 2 ^ 23 < 2 ^ 22
/-- A double NaN. -/
abbrev nanD (a : DWord) : Prop := 0x7FF0000000000000 < a.toNat % 2 ^ 63
/-- A signaling double NaN. -/
abbrev signalingD (a : DWord) : Prop := nanD a ∧ a.toNat % 2 ^ 52 < 2 ^ 51

/-! ### Numbers and their rounding (45_fd_float.md R310, R311, R313)

A pattern is a natural number here, and a format is the widths `eb` and `fb` of its exponent and fraction fields: 8 and 23
for single, 11 and 52 for double. -/

/-- The magnitude of a pattern (R311): `(1 + Fraction) x 2^(Exponent - Bias)`, or `Fraction x 2^(1 - Bias)` where the
exponent field is zero. Of an infinity, whose exponent field is all ones, the formula gives the power of two after the
greatest finite number, above every finite one. -/
def magnitude (eb fb n : Nat) : ℚ :=
  let bias : Int := 2 ^ (eb - 1) - 1
  let fraction : ℚ := (n % 2 ^ fb : Nat) / 2 ^ fb
  let exponent := n / 2 ^ fb % 2 ^ eb
  if exponent = 0 then fraction * 2 ^ (1 - bias) else (1 + fraction) * 2 ^ ((exponent : Int) - bias)

/-- The number of a pattern: its magnitude with its sign (R311). -/
def number (eb fb n : Nat) : ℚ := if n / 2 ^ (eb + fb) % 2 = 1 then -magnitude eb fb n else magnitude eb fb n

/-- The pattern of the infinity with a sign: the exponent all ones, the fraction 0 (R311). -/
def infinityOf (eb fb : Nat) (neg : Bool) : Nat := (if neg then 2 ^ (eb + fb) else 0) + (2 ^ eb - 1) * 2 ^ fb

/-- A finite number: the exponent field is not all ones (R311). -/
abbrev isFinite (eb fb n : Nat) : Prop := n % 2 ^ (eb + fb) < infinityOf eb fb false

/-- Does a mode take a magnitude that lies between two neighbours, or on the lower one, to the upper one (R313)? `halfBelow` and
`halfAt` say that the point halfway is below the magnitude, or is it; `odd`, that the lower neighbour is odd. -/
def takesUpper (m : RoundingMode) (neg : Bool) (inexact halfBelow halfAt odd : Prop) : Prop :=
  match m with
  | .nearestEven => halfBelow ∨ (halfAt ∧ odd)
  | .towardZero => False
  | .down => neg = true ∧ inexact
  | .up => neg = false ∧ inexact
  | .nearestAway => halfBelow ∨ halfAt

/-- R313: the magnitude whose `k`-th power is `y`, with the sign `neg`, rounded once in the mode `m`, is the pattern `r`, with
the flags `fl`. It stands from the pattern `t` up to the next one, with no bound above where `t` is the greatest finite one
and the next the infinity; a mode to nearest compares it with the point halfway between the two. The flags of R314 are those of
IEEE 754-2008, which R316 names: NX where the result is not exact, OF where it is an infinity or the magnitude has reached
that of an infinity; UF only where the result is inexact and below the normal numbers, and certainly where it is inexact and
below the greatest subnormal (between the two it is a free value, log 10). -/
def roundsOnce (eb fb : Nat) (m : RoundingMode) (neg : Bool) (k : Nat) (y : ℚ) (r : Nat) (fl : FpFlags) : Prop :=
  ∃ t < infinityOf eb fb false,
    magnitude eb fb t ^ k ≤ y ∧ (t + 1 < infinityOf eb fb false → y < magnitude eb fb (t + 1) ^ k) ∧
    (let half := (magnitude eb fb t + magnitude eb fb (t + 1)) / 2
     let inexact := magnitude eb fb t ^ k ≠ y
     let away := takesUpper m neg inexact (half ^ k < y) (half ^ k = y) (t % 2 = 1)
     let sign := if neg then 2 ^ (eb + fb) else 0
     (away → r = sign + (t + 1)) ∧ (¬ away → r = sign + t) ∧
     fl.getLsbD 4 = false ∧ fl.getLsbD 3 = false ∧ (fl.getLsbD 0 = true ↔ inexact) ∧
     (fl.getLsbD 2 = true ↔ r = infinityOf eb fb neg ∨ magnitude eb fb (infinityOf eb fb false) ^ k ≤ y) ∧
     (fl.getLsbD 1 = true → inexact ∧ y < magnitude eb fb (2 ^ fb) ^ k) ∧
     (inexact → t + 1 < 2 ^ fb → fl.getLsbD 1 = true))

/-- The exact result `x` rounded once (R313); an exact 0 is the zero with the sign `zeroNeg`, without a flag. -/
def roundsNumber (eb fb : Nat) (m : RoundingMode) (x : ℚ) (zeroNeg : Bool) (r : Nat) (fl : FpFlags) : Prop :=
  (x ≠ 0 → roundsOnce eb fb m (decide (x < 0)) 1 |x| r fl) ∧
  (x = 0 → r = (if zeroNeg then 2 ^ (eb + fb) else 0) ∧ fl = 0#5)

/-- The integer to which a number is rounded (R313, R320). -/
def integerOf (m : RoundingMode) (x : ℚ) : Int :=
  match m with
  | .nearestEven =>
    if x - ⌊x⌋ < 1 / 2 ∨ (x - ⌊x⌋ = 1 / 2 ∧ ⌊x⌋ % 2 = 0) then ⌊x⌋ else ⌊x⌋ + 1
  | .towardZero => if x < 0 then ⌈x⌉ else ⌊x⌋
  | .down => ⌊x⌋
  | .up => ⌈x⌉
  | .nearestAway => if x < 0 then ⌈x - 1 / 2⌉ else ⌊x + 1 / 2⌋

/-! ### The intended FP_NUMERICS (45_fd_float.md R313 to R321), in one format of `w` bits -/

/-- R244 to R261, R313, R314 on finite operands: the result is the exact one rounded once, and an exact zero has
the sign of IEEE 754 (in a sum +0, or -0 in mode 010, unless both terms have the sign of the zero). -/
structure ArithmeticOf (eb fb w : Nat) (ops : FpOps w) : Prop where
  add : ∀ m a b, isFinite eb fb a.toNat → isFinite eb fb b.toNat →
    roundsNumber eb fb m (number eb fb a.toNat + number eb fb b.toNat) (if a.msb = b.msb then a.msb else m = .down)
      (ops.add m a b).1.toNat (ops.add m a b).2
  sub : ∀ m a b, isFinite eb fb a.toNat → isFinite eb fb b.toNat →
    roundsNumber eb fb m (number eb fb a.toNat - number eb fb b.toNat) (if a.msb = !b.msb then a.msb else m = .down)
      (ops.sub m a b).1.toNat (ops.sub m a b).2
  mul : ∀ m a b, isFinite eb fb a.toNat → isFinite eb fb b.toNat →
    roundsNumber eb fb m (number eb fb a.toNat * number eb fb b.toNat) (a.msb != b.msb)
      (ops.mul m a b).1.toNat (ops.mul m a b).2
  div : ∀ m a b, isFinite eb fb a.toNat → isFinite eb fb b.toNat → number eb fb b.toNat ≠ 0 →
    roundsNumber eb fb m (number eb fb a.toNat / number eb fb b.toNat) (a.msb != b.msb)
      (ops.div m a b).1.toNat (ops.div m a b).2
  sqrt : ∀ m a, isFinite eb fb a.toNat → 0 < number eb fb a.toNat →
    roundsOnce eb fb m false 2 (number eb fb a.toNat) (ops.sqrt m a).1.toNat (ops.sqrt m a).2
  fma : ∀ m a b c, isFinite eb fb a.toNat → isFinite eb fb b.toNat → isFinite eb fb c.toNat →
    roundsNumber eb fb m (number eb fb a.toNat * number eb fb b.toNat + number eb fb c.toNat)
      (if (a.msb != b.msb) = c.msb then c.msb else m = .down) (ops.fma m a b c).1.toNat (ops.fma m a b c).2

/-- The same rules where an operand is an infinity or a result has no number: R244, R248, R250, R252 and section 4. `inf`
and `zero` give the pattern with a sign. -/
structure SpecialsOf (eb fb w : Nat) (ops : FpOps w) (nan : BitVec w) (inf zero : Bool → BitVec w) : Prop where
  addInfinities : ∀ m p q, ops.add m (inf p) (inf q) = (if p = q then (inf p, 0#5) else (nan, 0b10000#5))
  addInfinity : ∀ m p a, isFinite eb fb a.toNat → ops.add m (inf p) a = (inf p, 0#5) ∧ ops.add m a (inf p) = (inf p, 0#5)
  subInfinities : ∀ m p q, ops.sub m (inf p) (inf q) = (if p = q then (nan, 0b10000#5) else (inf p, 0#5))
  subInfinity : ∀ m p a, isFinite eb fb a.toNat → ops.sub m (inf p) a = (inf p, 0#5) ∧ ops.sub m a (inf p) = (inf (!p), 0#5)
  mulInfinities : ∀ m p q, ops.mul m (inf p) (inf q) = (inf (p != q), 0#5)
  mulInfinity : ∀ m p a, isFinite eb fb a.toNat →
    ops.mul m (inf p) a = (if number eb fb a.toNat = 0 then (nan, 0b10000#5) else (inf (p != a.msb), 0#5)) ∧
    ops.mul m a (inf p) = (if number eb fb a.toNat = 0 then (nan, 0b10000#5) else (inf (a.msb != p), 0#5))
  divInfinities : ∀ m p q, ops.div m (inf p) (inf q) = (nan, 0b10000#5)
  divInfinity : ∀ m p a, isFinite eb fb a.toNat →
    ops.div m (inf p) a = (inf (p != a.msb), 0#5) ∧ ops.div m a (inf p) = (zero (a.msb != p), 0#5)
  divZero : ∀ m a b, isFinite eb fb a.toNat → isFinite eb fb b.toNat → number eb fb b.toNat = 0 →
    ops.div m a b = (if number eb fb a.toNat = 0 then (nan, 0b10000#5) else (inf (a.msb != b.msb), 0b01000#5))
  sqrtInfinity : ∀ m p, ops.sqrt m (inf p) = (if p then (nan, 0b10000#5) else (inf p, 0#5))
  sqrtZero : ∀ m p, ops.sqrt m (zero p) = (zero p, 0#5)
  sqrtNegative : ∀ m a, isFinite eb fb a.toNat → number eb fb a.toNat < 0 → ops.sqrt m a = (nan, 0b10000#5)
  fmaZeroTimesInfinity : ∀ m p a c, isFinite eb fb a.toNat → number eb fb a.toNat = 0 →
    ops.fma m (inf p) a c = (nan, 0b10000#5) ∧ ops.fma m a (inf p) c = (nan, 0b10000#5)
  fmaInfinity : ∀ m p a c, isFinite eb fb a.toNat ∧ number eb fb a.toNat ≠ 0 ∨ a = inf false ∨ a = inf true →
    isFinite eb fb c.toNat →
    ops.fma m (inf p) a c = (inf (p != a.msb), 0#5) ∧ ops.fma m a (inf p) c = (inf (a.msb != p), 0#5)
  fmaInfinities : ∀ m p q a, isFinite eb fb a.toNat ∧ number eb fb a.toNat ≠ 0 ∨ a = inf false ∨ a = inf true →
    ops.fma m (inf p) a (inf q) = (if (p != a.msb) = q then (inf q, 0#5) else (nan, 0b10000#5)) ∧
    ops.fma m a (inf p) (inf q) = (if (a.msb != p) = q then (inf q, 0#5) else (nan, 0b10000#5))
  fmaAddend : ∀ m q a b, isFinite eb fb a.toNat → isFinite eb fb b.toNat → ops.fma m a b (inf q) = (inf q, 0#5)

/-- R317, R318: `fmin`, `fmax`, `feq`, `flt` and `fle`, with `isNan` and `isSignaling` of the format: the order is that of the
numbers, -0 below +0 for `fmin` and `fmax` alone; what a NaN gives; and the flags, of which only NV is ever raised. -/
structure SelectionOf (eb fb w : Nat) (ops : FpOps w) (isNan isSignaling : BitVec w → Prop) : Prop where
  eq : ∀ a b, (ops.eq a b).1 = 1#1 ↔ ¬ isNan a ∧ ¬ isNan b ∧ number eb fb a.toNat = number eb fb b.toNat
  lt : ∀ a b, (ops.lt a b).1 = 1#1 ↔ ¬ isNan a ∧ ¬ isNan b ∧ number eb fb a.toNat < number eb fb b.toNat
  le : ∀ a b, (ops.le a b).1 = 1#1 ↔ ¬ isNan a ∧ ¬ isNan b ∧ number eb fb a.toNat ≤ number eb fb b.toNat
  eqFlags : ∀ a b, (isSignaling a ∨ isSignaling b → (ops.eq a b).2 = 0b10000#5) ∧
    (¬ (isSignaling a ∨ isSignaling b) → (ops.eq a b).2 = 0#5)
  ltFlags : ∀ a b, (isNan a ∨ isNan b → (ops.lt a b).2 = 0b10000#5) ∧ (¬ (isNan a ∨ isNan b) → (ops.lt a b).2 = 0#5)
  leFlags : ∀ a b, (isNan a ∨ isNan b → (ops.le a b).2 = 0b10000#5) ∧ (¬ (isNan a ∨ isNan b) → (ops.le a b).2 = 0#5)
  oneNan : ∀ a b, isNan a → ¬ isNan b →
    (ops.min a b).1 = b ∧ (ops.max a b).1 = b ∧ (ops.min b a).1 = b ∧ (ops.max b a).1 = b
  ordered : ∀ a b, ¬ isNan a → ¬ isNan b → number eb fb a.toNat < number eb fb b.toNat →
    (ops.min a b).1 = a ∧ (ops.max a b).1 = b ∧ (ops.min b a).1 = a ∧ (ops.max b a).1 = b
  equal : ∀ a, ¬ isNan a → (ops.min a a).1 = a ∧ (ops.max a a).1 = a
  zeros : ∀ a b, number eb fb a.toNat = 0 → number eb fb b.toNat = 0 → a.msb = true → b.msb = false →
    (ops.min a b).1 = a ∧ (ops.max a b).1 = b ∧ (ops.min b a).1 = a ∧ (ops.max b a).1 = b
  minFlags : ∀ a b, (isSignaling a ∨ isSignaling b → (ops.min a b).2 = 0b10000#5) ∧
    (¬ (isSignaling a ∨ isSignaling b) → (ops.min a b).2 = 0#5)
  maxFlags : ∀ a b, (isSignaling a ∨ isSignaling b → (ops.max a b).2 = 0b10000#5) ∧
    (¬ (isSignaling a ∨ isSignaling b) → (ops.max a b).2 = 0#5)

/-- R320 on a finite operand: rounded to an integer; NX where it differs from the operand; saturation with NV, and without
NX, where it does not fit. -/
def convertsToInteger (lo hi : Int) (m : RoundingMode) (x : ℚ) (r : Word × FpFlags) : Prop :=
  (integerOf m x < lo → r = (BitVec.ofInt 32 lo, 0b10000#5)) ∧
  (hi < integerOf m x → r = (BitVec.ofInt 32 hi, 0b10000#5)) ∧
  (lo ≤ integerOf m x → integerOf m x ≤ hi →
    (integerOf m x = x → r = (BitVec.ofInt 32 (integerOf m x), 0#5)) ∧
    (integerOf m x ≠ x → r = (BitVec.ofInt 32 (integerOf m x), 0b00001#5)))

end Sys2Proof.Machine
end

