-- ==== Sys2Proof/WellFormed.lean ====
section
/-! DEFINITION. Which instructions have an encoding: a branch or jal offset is even (30_encoding.md R86, R88: bit 0 "is
always 0"). Every other field of `Instr` is exactly a field of the instruction word, so nothing else needs a check. -/

namespace Sys2Proof

/-- The check of 30_encoding.md R86 (branches) and R88 (jal); every other instruction is well formed. -/
def Instr.check (i : Instr) : Bool :=
  match i with
  | .beq _ _ off | .bne _ _ off | .blt _ _ off | .bge _ _ off | .bltu _ _ off | .bgeu _ _ off => !off.getLsbD 0
  | .jal _ off => !off.getLsbD 0
  | _ => true

/-- An instruction that has an encoding. -/
abbrev Instr.WellFormed (i : Instr) : Prop := i.check = true

end Sys2Proof
end

