-- ==== Sys2Proof/Certificates/Slice0/Obligations.lean ====
section
/-! DEFINITION. The statements for the provers. Each is written from the numbered rules of spec/ that its docstring names, in
the terms of Sys2Proof/Safety.lean. -/

open Sys2Proof Sys2Proof.Machine

/-- Decoding the word of a well-formed instruction gives it back, every operand at every value its field admits (30_encoding.md R81 to R93, R100 to R102). -/
def Obligations.DecodeOfEncode : Prop :=
  ∀ i : Instr, i.WellFormed → decodeWord (encode i) = .ok i

/-- A word has one meaning: an instruction the decoder reads from a word encodes to that very word, and it is well formed (30_encoding.md R86, R88, R105). -/
def Obligations.EncodeOfDecode : Prop :=
  ∀ (w : Word) (i : Instr), decodeWord w = .ok i → encode i = w ∧ i.WellFormed

/-- The decoder accepts exactly the rows of spec/opcode_table.json: a word that decodes to an instruction matches that instruction's row, and a word that matches a row decodes to an instruction of that row (30_encoding.md R93, R100 to R103). -/
def Obligations.DecoderReadsTheTable : Prop :=
  (∀ (w : Word) (i : Instr), decodeWord w = .ok i → w &&& (tableRow i).1 = (tableRow i).2) ∧
  (∀ (w : Word) (j : Instr), w &&& (tableRow j).1 = (tableRow j).2 →
    ∃ i, decodeWord w = .ok i ∧ tableRow i = tableRow j)

/-- 30_encoding.md R107: every unlisted opcode is illegal, none is a no-op; and R103: so are the all-zero and the all-ones word. -/
def Obligations.UnlistedOpcodesAreIllegal : Prop :=
  (∀ (w : Word) (i : Instr),
    opcode w ∉ [0x03#7, 0x0F#7, 0x13#7, 0x17#7, 0x23#7, 0x33#7, 0x37#7, 0x63#7, 0x67#7, 0x6F#7, 0x73#7, 0x2F#7, 0x07#7,
      0x27#7, 0x43#7, 0x47#7, 0x4B#7, 0x4F#7, 0x53#7] → decodeWord w ≠ .ok i) ∧
  (∀ i, decodeWord 0x00000000#32 ≠ .ok i) ∧ (∀ i, decodeWord 0xFFFFFFFF#32 ≠ .ok i)

/-- The words that the examples of the cited rules print decode to the instructions they are printed for, one or more of every family. -/
def Obligations.SpecWordsDecode : Prop :=
  decodeWord 0x002081B3#32 = .ok (.add 3#5 1#5 2#5) ∧
  decodeWord 0xFFF30293#32 = .ok (.addi 5#5 6#5 0xFFF#12) ∧
  decodeWord 0x12345297#32 = .ok (.auipc 5#5 0x12345#20) ∧
  decodeWord 0x00208463#32 = .ok (.beq 1#5 2#5 8#13) ∧
  decodeWord 0x001000EF#32 = .ok (.jal 1#5 2048#21) ∧
  decodeWord 0x00231283#32 = .ok (.lh 5#5 6#5 2#12) ∧
  decodeWord 0x007301A3#32 = .ok (.sb 6#5 7#5 3#12) ∧
  decodeWord 0x3402B2F3#32 = .ok (.csrrc 5#5 5#5 0x340#12) ∧
  decodeWord 0x027342B3#32 = .ok (.div 5#5 6#5 7#5) ∧
  decodeWord 0x0020F1D3#32 = .ok (.faddS 3#5 1#5 2#5 7#3) ∧
  decodeWord 0x1820F243#32 = .ok (.fmaddS 4#5 1#5 2#5 3#5 7#3) ∧
  decodeWord 0x187322AF#32 = .ok (.scW 5#5 6#5 7#5 0#1 0#1)

/-- When the four bytes at pc may be fetched, none is stale and they decode to i, a step of a run that goes on is exec of i; nothing is added around it (00_scope.md R13, 20_memory.md R53, R59). -/
def Obligations.StepRunsDecoded : Prop :=
  ∀ (s : State) (i : Instr), s.trap = none → s.fetchable s.pc 4 → ¬ s.fetchIsStale →
    decode [s.byte s.pc, s.byte (s.pc + 1#32), s.byte (s.pc + 2#32), s.byte (s.pc + 3#32)] = .ok (i, []) →
    step s = exec i s

/-- 20_memory.md R59 and steps 1 to 3 of the order of 60_exceptions.md R403: X of the four bytes, then StaleFetch, then IllegalInstruction with the word. -/
def Obligations.FetchChecksInOrder : Prop :=
  ∀ s : State, s.trap = none →
    (¬ s.fetchable s.pc 4 → ∃ t, step s = .next t ∧ s.trapped t .instructionAccessFault s.pc) ∧
    (s.fetchable s.pc 4 → s.fetchIsStale → step s = .fault (.staleFetch s.pc s)) ∧
    (s.fetchable s.pc 4 → ¬ s.fetchIsStale → (∀ i, decodeWord (s.wordAt s.pc) ≠ .ok i) →
      ∃ t, step s = .next t ∧ s.trapped t .illegalInstruction (s.wordAt s.pc))

/-- 40_rv32i_integer.md R120, R123, R124, R127, R128, R141: each result is the exact integer one modulo 2^32; only x[rd] and pc change, a write to x0 is discarded (10_state.md R22), nothing raises. -/
def Obligations.IntegerSums : Prop :=
  ∀ (s : State) (rd rs1 rs2 : RegIdx),
  (Instr.inRow (.add rd rs1 rs2) 0xFE00707F#32 0x00000033#32 ∧
    s.gives (.add rd rs1 rs2) (fun t => s.onlyX t rd (BitVec.ofNat 32 ((s.readX rs1).toNat + (s.readX rs2).toNat)))) ∧
  (Instr.inRow (.sub rd rs1 rs2) 0xFE00707F#32 0x40000033#32 ∧
    s.gives (.sub rd rs1 rs2) (fun t => s.onlyX t rd (BitVec.ofInt 32 ((s.readX rs1).toInt - (s.readX rs2).toInt)))) ∧
  (∀ imm : BitVec 12, Instr.inRow (.addi rd rs1 imm) 0x0000707F#32 0x00000013#32 ∧
    s.gives (.addi rd rs1 imm) (fun t => s.onlyX t rd (BitVec.ofInt 32 ((s.readX rs1).toInt + imm.toInt)))) ∧
  (∀ imm : BitVec 20, Instr.inRow (.lui rd imm) 0x0000007F#32 0x00000037#32 ∧
    s.gives (.lui rd imm) (fun t => s.onlyX t rd (BitVec.ofNat 32 (imm.toNat * 2 ^ 12)))) ∧
  (∀ imm : BitVec 20, Instr.inRow (.auipc rd imm) 0x0000007F#32 0x00000017#32 ∧
    s.gives (.auipc rd imm) (fun t => s.onlyX t rd (BitVec.ofNat 32 (s.pc.toNat + imm.toNat * 2 ^ 12))))

/-- 40_rv32i_integer.md R125, R126, R129, R130, R142, R143, bit by bit; bit k of a sign-extended 12-bit immediate is its bit min k 11 (30_encoding.md R84). -/
def Obligations.IntegerLogic : Prop :=
  ∀ (s : State) (rd rs1 rs2 : RegIdx) (imm : BitVec 12),
  (Instr.inRow (.and rd rs1 rs2) 0xFE00707F#32 0x00007033#32 ∧
    s.gives (.and rd rs1 rs2) (fun t => ∃ v, s.onlyX t rd v ∧ ∀ k < 32, v.getLsbD k = ((s.readX rs1).getLsbD k && (s.readX rs2).getLsbD k))) ∧
  (Instr.inRow (.or rd rs1 rs2) 0xFE00707F#32 0x00006033#32 ∧
    s.gives (.or rd rs1 rs2) (fun t => ∃ v, s.onlyX t rd v ∧ ∀ k < 32, v.getLsbD k = ((s.readX rs1).getLsbD k || (s.readX rs2).getLsbD k))) ∧
  (Instr.inRow (.xor rd rs1 rs2) 0xFE00707F#32 0x00004033#32 ∧
    s.gives (.xor rd rs1 rs2) (fun t => ∃ v, s.onlyX t rd v ∧ ∀ k < 32, v.getLsbD k = ((s.readX rs1).getLsbD k != (s.readX rs2).getLsbD k))) ∧
  (Instr.inRow (.andi rd rs1 imm) 0x0000707F#32 0x00007013#32 ∧
    s.gives (.andi rd rs1 imm) (fun t => ∃ v, s.onlyX t rd v ∧ ∀ k < 32, v.getLsbD k = ((s.readX rs1).getLsbD k && imm.getLsbD (min k 11)))) ∧
  (Instr.inRow (.ori rd rs1 imm) 0x0000707F#32 0x00006013#32 ∧
    s.gives (.ori rd rs1 imm) (fun t => ∃ v, s.onlyX t rd v ∧ ∀ k < 32, v.getLsbD k = ((s.readX rs1).getLsbD k || imm.getLsbD (min k 11)))) ∧
  (Instr.inRow (.xori rd rs1 imm) 0x0000707F#32 0x00004013#32 ∧
    s.gives (.xori rd rs1 imm) (fun t => ∃ v, s.onlyX t rd v ∧ ∀ k < 32, v.getLsbD k = ((s.readX rs1).getLsbD k != imm.getLsbD (min k 11))))

/-- 40_rv32i_integer.md R122, R131, R132, R137 to R140: the amount is x[rs2] modulo 32, or shamt; srl and sra round down. -/
def Obligations.IntegerShifts : Prop :=
  ∀ (s : State) (rd rs1 rs2 : RegIdx) (shamt : BitVec 5),
  (Instr.inRow (.sll rd rs1 rs2) 0xFE00707F#32 0x00001033#32 ∧
    s.gives (.sll rd rs1 rs2) (fun t => s.onlyX t rd (BitVec.ofNat 32 ((s.readX rs1).toNat * 2 ^ ((s.readX rs2).toNat % 32))))) ∧
  (Instr.inRow (.srl rd rs1 rs2) 0xFE00707F#32 0x00005033#32 ∧
    s.gives (.srl rd rs1 rs2) (fun t => s.onlyX t rd (BitVec.ofNat 32 ((s.readX rs1).toNat / 2 ^ ((s.readX rs2).toNat % 32))))) ∧
  (Instr.inRow (.sra rd rs1 rs2) 0xFE00707F#32 0x40005033#32 ∧
    s.gives (.sra rd rs1 rs2) (fun t => s.onlyX t rd (BitVec.ofInt 32 ((s.readX rs1).toInt / 2 ^ ((s.readX rs2).toNat % 32))))) ∧
  (Instr.inRow (.slli rd rs1 shamt) 0xFE00707F#32 0x00001013#32 ∧
    s.gives (.slli rd rs1 shamt) (fun t => s.onlyX t rd (BitVec.ofNat 32 ((s.readX rs1).toNat * 2 ^ shamt.toNat)))) ∧
  (Instr.inRow (.srli rd rs1 shamt) 0xFE00707F#32 0x00005013#32 ∧
    s.gives (.srli rd rs1 shamt) (fun t => s.onlyX t rd (BitVec.ofNat 32 ((s.readX rs1).toNat / 2 ^ shamt.toNat)))) ∧
  (Instr.inRow (.srai rd rs1 shamt) 0xFE00707F#32 0x40005013#32 ∧
    s.gives (.srai rd rs1 shamt) (fun t => s.onlyX t rd (BitVec.ofInt 32 ((s.readX rs1).toInt / 2 ^ shamt.toNat))))

/-- 40_rv32i_integer.md R121, R133 to R136: slt and slti compare signed, sltu and sltiu unsigned, the immediate sign-extended first. -/
def Obligations.IntegerComparisons : Prop :=
  ∀ (s : State) (rd rs1 rs2 : RegIdx) (imm : BitVec 12),
  (Instr.inRow (.slt rd rs1 rs2) 0xFE00707F#32 0x00002033#32 ∧
    s.gives (.slt rd rs1 rs2) (fun t => s.onlyX t rd (if (s.readX rs1).toInt < (s.readX rs2).toInt then 1#32 else 0#32))) ∧
  (Instr.inRow (.sltu rd rs1 rs2) 0xFE00707F#32 0x00003033#32 ∧
    s.gives (.sltu rd rs1 rs2) (fun t => s.onlyX t rd (if (s.readX rs1).toNat < (s.readX rs2).toNat then 1#32 else 0#32))) ∧
  (Instr.inRow (.slti rd rs1 imm) 0x0000707F#32 0x00002013#32 ∧
    s.gives (.slti rd rs1 imm) (fun t => s.onlyX t rd (if (s.readX rs1).toInt < imm.toInt then 1#32 else 0#32))) ∧
  (Instr.inRow (.sltiu rd rs1 imm) 0x0000707F#32 0x00003013#32 ∧
    s.gives (.sltiu rd rs1 imm) (fun t => s.onlyX t rd (if (s.readX rs1).toNat < (BitVec.ofInt 32 imm.toInt).toNat then 1#32 else 0#32)))

/-- 41_rv32i_control.md R150 to R157: when the comparison holds and pc + imm_B is a multiple of 4, pc becomes it; when it is not, InstructionAddressMisaligned of it; when the comparison fails, pc + 4 whatever the offset. Nothing else changes. -/
def Obligations.Branches : Prop :=
  ∀ (s : State) (rs1 rs2 : RegIdx) (off : BitVec 13),
  (Instr.inRow (.beq rs1 rs2 off) 0x0000707F#32 0x00000063#32 ∧ s.branchesWhen (.beq rs1 rs2 off) off ((s.readX rs1) = (s.readX rs2))) ∧
  (Instr.inRow (.bne rs1 rs2 off) 0x0000707F#32 0x00001063#32 ∧ s.branchesWhen (.bne rs1 rs2 off) off ((s.readX rs1) ≠ (s.readX rs2))) ∧
  (Instr.inRow (.blt rs1 rs2 off) 0x0000707F#32 0x00004063#32 ∧ s.branchesWhen (.blt rs1 rs2 off) off ((s.readX rs1).toInt < (s.readX rs2).toInt)) ∧
  (Instr.inRow (.bge rs1 rs2 off) 0x0000707F#32 0x00005063#32 ∧ s.branchesWhen (.bge rs1 rs2 off) off ((s.readX rs2).toInt ≤ (s.readX rs1).toInt)) ∧
  (Instr.inRow (.bltu rs1 rs2 off) 0x0000707F#32 0x00006063#32 ∧ s.branchesWhen (.bltu rs1 rs2 off) off ((s.readX rs1).toNat < (s.readX rs2).toNat)) ∧
  (Instr.inRow (.bgeu rs1 rs2 off) 0x0000707F#32 0x00007063#32 ∧ s.branchesWhen (.bgeu rs1 rs2 off) off ((s.readX rs2).toNat ≤ (s.readX rs1).toNat))

/-- 41_rv32i_control.md R150, R158, R159: jal to pc + imm_J, jalr to (x[rs1] + imm_I) with bit 0 cleared, both read before x[rd] is written; x[rd] becomes pc + 4; a target that is no multiple of 4 is InstructionAddressMisaligned and x[rd] is not written. -/
def Obligations.Jumps : Prop :=
  ∀ (s : State) (rd rs1 : RegIdx),
  (∀ off : BitVec 21, Instr.inRow (.jal rd off) 0x0000007F#32 0x0000006F#32 ∧ s.jumpsTo (.jal rd off) rd (s.pc + off.signExtend 32)) ∧
  (∀ imm : BitVec 12, Instr.inRow (.jalr rd rs1 imm) 0x0000707F#32 0x00000067#32 ∧ s.jumpsTo (.jalr rd rs1 imm) rd ((s.readX rs1 + imm.signExtend 32) &&& 0xFFFFFFFE#32))

/-- 41_rv32i_control.md R150, of exec: with pc a multiple of 4 (10_state.md R27) and an even offset (30_encoding.md R86, R88), a branch raises InstructionAddressMisaligned exactly when it is taken and its offset is 2 modulo 4, and jal exactly when its offset is; jalr exactly when bit 1 of x[rs1] + imm_I is 1, and never for bit 0. -/
def Obligations.MisalignedTargets : Prop :=
  ∀ (s : State) (rd rs1 rs2 : RegIdx), s.trap = none → s.pcAligned →
  (∀ off : BitVec 13, off.toNat % 2 = 0 →
    (s.misaligns (.beq rs1 rs2 off) ↔ (s.readX rs1) = (s.readX rs2) ∧ off.toNat % 4 = 2) ∧
    (s.misaligns (.bne rs1 rs2 off) ↔ (s.readX rs1) ≠ (s.readX rs2) ∧ off.toNat % 4 = 2) ∧
    (s.misaligns (.blt rs1 rs2 off) ↔ (s.readX rs1).toInt < (s.readX rs2).toInt ∧ off.toNat % 4 = 2) ∧
    (s.misaligns (.bge rs1 rs2 off) ↔ (s.readX rs2).toInt ≤ (s.readX rs1).toInt ∧ off.toNat % 4 = 2) ∧
    (s.misaligns (.bltu rs1 rs2 off) ↔ (s.readX rs1).toNat < (s.readX rs2).toNat ∧ off.toNat % 4 = 2) ∧
    (s.misaligns (.bgeu rs1 rs2 off) ↔ (s.readX rs2).toNat ≤ (s.readX rs1).toNat ∧ off.toNat % 4 = 2)) ∧
  (∀ off : BitVec 21, off.toNat % 2 = 0 → (s.misaligns (.jal rd off) ↔ off.toNat % 4 = 2)) ∧
  (∀ imm : BitVec 12, s.misaligns (.jalr rd rs1 imm) ↔ (s.readX rs1 + imm.signExtend 32).getLsbD 1 = true)

/-- 42_rv32i_loadstore.md R170 to R176, 20_memory.md R52, R55, R58: the alignment check, then existence and R, then the little-endian value, sign- or zero-extended, into x[rd]; nothing else changes, and a load that raises writes nothing. -/
def Obligations.Loads : Prop :=
  ∀ (s : State) (rd rs1 : RegIdx) (imm : BitVec 12),
  (Instr.inRow (.lb rd rs1 imm) 0x0000707F#32 0x00000003#32 ∧
    s.loadsFrom (.lb rd rs1 imm) (s.readX rs1 + imm.signExtend 32) 1 fun t => s.onlyX t rd (BitVec.ofInt 32 (s.byte (s.readX rs1 + imm.signExtend 32)).toInt)) ∧
  (Instr.inRow (.lbu rd rs1 imm) 0x0000707F#32 0x00004003#32 ∧
    s.loadsFrom (.lbu rd rs1 imm) (s.readX rs1 + imm.signExtend 32) 1 fun t => s.onlyX t rd (BitVec.ofNat 32 (s.byte (s.readX rs1 + imm.signExtend 32)).toNat)) ∧
  (Instr.inRow (.lh rd rs1 imm) 0x0000707F#32 0x00001003#32 ∧
    s.loadsFrom (.lh rd rs1 imm) (s.readX rs1 + imm.signExtend 32) 2 fun t => s.onlyX t rd (BitVec.ofInt 32 ((s.byte ((s.readX rs1 + imm.signExtend 32) + 1#32)) ++ (s.byte (s.readX rs1 + imm.signExtend 32))).toInt)) ∧
  (Instr.inRow (.lhu rd rs1 imm) 0x0000707F#32 0x00005003#32 ∧
    s.loadsFrom (.lhu rd rs1 imm) (s.readX rs1 + imm.signExtend 32) 2 fun t => s.onlyX t rd (BitVec.ofNat 32 ((s.byte (s.readX rs1 + imm.signExtend 32)).toNat + 2 ^ 8 * (s.byte ((s.readX rs1 + imm.signExtend 32) + 1#32)).toNat))) ∧
  (Instr.inRow (.lw rd rs1 imm) 0x0000707F#32 0x00002003#32 ∧
    s.loadsFrom (.lw rd rs1 imm) (s.readX rs1 + imm.signExtend 32) 4 fun t => s.onlyX t rd (s.wordAt (s.readX rs1 + imm.signExtend 32)))

/-- 42_rv32i_loadstore.md R170, R177 to R180, 20_memory.md R52, R55, R58, R62: the alignment check, then existence and W, then the low bytes of x[rs2], which join stale and clear a reservation of their granule; every other byte and register stays. -/
def Obligations.Stores : Prop :=
  ∀ (s : State) (rs1 rs2 : RegIdx) (imm : BitVec 12),
  (Instr.inRow (.sb rs1 rs2 imm) 0x0000707F#32 0x00000023#32 ∧
    s.storesTo (.sb rs1 rs2 imm) (s.readX rs1 + imm.signExtend 32) ((littleEndian (s.readX rs2)).take 1)) ∧
  (Instr.inRow (.sh rs1 rs2 imm) 0x0000707F#32 0x00001023#32 ∧
    s.storesTo (.sh rs1 rs2 imm) (s.readX rs1 + imm.signExtend 32) ((littleEndian (s.readX rs2)).take 2)) ∧
  (Instr.inRow (.sw rs1 rs2 imm) 0x0000707F#32 0x00002023#32 ∧
    s.storesTo (.sw rs1 rs2 imm) (s.readX rs1 + imm.signExtend 32) (littleEndian (s.readX rs2)))

/-- 20_memory.md R52, R54: what MemWrite puts in memory at 1, 2, 4 or 8 bytes, a read of that width gives back, little-endian, and so does a read of every smaller width inside it; every byte outside the written ones stays, at every width. -/
def Obligations.MemoryReadsBackWrites : Prop :=
  ∀ (s : State) (a : Word),
  (∀ v : Byte, (s.store a [v]).byte a = v) ∧
  (∀ v : Half, (s.store a (bytes16 v)).read16 a = v ∧
    (∀ k < 2, (s.store a (bytes16 v)).byte (a + BitVec.ofNat 32 k) = v.extractLsb' (8 * k) 8)) ∧
  (∀ v : Word, (s.store a (bytes32 v)).read32 a = v ∧
    (∀ k < 4, (s.store a (bytes32 v)).byte (a + BitVec.ofNat 32 k) = v.extractLsb' (8 * k) 8) ∧
    (∀ j < 2, (s.store a (bytes32 v)).read16 (a + BitVec.ofNat 32 (2 * j)) = v.extractLsb' (16 * j) 16)) ∧
  (∀ v : DWord, (s.store a (bytes64 v)).read64 a = v ∧
    (∀ k < 8, (s.store a (bytes64 v)).byte (a + BitVec.ofNat 32 k) = v.extractLsb' (8 * k) 8) ∧
    (∀ j < 2, (s.store a (bytes64 v)).read32 (a + BitVec.ofNat 32 (4 * j)) = v.extractLsb' (32 * j) 32)) ∧
  (∀ b : Word, b ≠ a → ∀ v : Byte, (s.store a [v]).byte b = s.byte b) ∧
  (∀ b : Word, (∀ k < 2, b ≠ a + BitVec.ofNat 32 k) → ∀ v : Half, (s.store a (bytes16 v)).byte b = s.byte b) ∧
  (∀ b : Word, (∀ k < 4, b ≠ a + BitVec.ofNat 32 k) → ∀ v : Word, (s.store a (bytes32 v)).byte b = s.byte b) ∧
  (∀ b : Word, (∀ k < 8, b ≠ a + BitVec.ofNat 32 k) → ∀ v : DWord, (s.store a (bytes64 v)).byte b = s.byte b)

/-- The canonical form is one: two memories in it that read alike are the same list (the model's own form; see Memory.wf). -/
def Obligations.EqualMemoriesAreEqualData : Prop :=
  ∀ m n : Memory, Memory.wf m → Memory.wf n → (∀ a : Nat, m.read a = n.read a) → m = n

/-- 43_rv32i_system.md R190 to R196, 10_state.md R37, R38: an absent CSR and a write to a read-only one are IllegalInstruction; else x[rd] gets the old value (a free draw where volatile, 93_implementation_defined.md U3; the statement holds for every value of it, log 8), the CSR gets the new one under its write mask, and no unrelated CSR changes. csrrw and csrrwi always write and read a volatile CSR only when rd is not x0; the others write unless the field rs1 (or uimm) is 0. The model's choices in it: the counter of the draws (log 8), and that with EXT_F the numbers 0x001, 0x002 and 0x003 are the windows on fcsr whatever else CSR_SET lists under them (log 7, R35). -/
def Obligations.CsrInstructions : Prop :=
  ∀ (s : State) (rd rs1 : RegIdx) (uimm : BitVec 5) (csr : CsrIdx),
  (Instr.inRow (.csrrw rd rs1 csr) 0x0000707F#32 0x00001073#32 ∧
    s.runsCsr (.csrrw rd rs1 csr) rd csr (True) (rd ≠ 0#5) fun _ => s.readX rs1) ∧
  (Instr.inRow (.csrrs rd rs1 csr) 0x0000707F#32 0x00002073#32 ∧
    s.runsCsr (.csrrs rd rs1 csr) rd csr (rs1 ≠ 0#5) (True) fun old => old ||| s.readX rs1) ∧
  (Instr.inRow (.csrrc rd rs1 csr) 0x0000707F#32 0x00003073#32 ∧
    s.runsCsr (.csrrc rd rs1 csr) rd csr (rs1 ≠ 0#5) (True) fun old => old &&& ~~~s.readX rs1) ∧
  (Instr.inRow (.csrrwi rd uimm csr) 0x0000707F#32 0x00005073#32 ∧
    s.runsCsr (.csrrwi rd uimm csr) rd csr (True) (rd ≠ 0#5) fun _ => BitVec.ofNat 32 uimm.toNat) ∧
  (Instr.inRow (.csrrsi rd uimm csr) 0x0000707F#32 0x00006073#32 ∧
    s.runsCsr (.csrrsi rd uimm csr) rd csr (uimm ≠ 0#5) (True) fun old => old ||| BitVec.ofNat 32 uimm.toNat) ∧
  (Instr.inRow (.csrrci rd uimm csr) 0x0000707F#32 0x00007073#32 ∧
    s.runsCsr (.csrrci rd uimm csr) rd csr (uimm ≠ 0#5) (True) fun old => old &&& ~~~BitVec.ofNat 32 uimm.toNat)

/-- 10_state.md R35: fflags is bits 4 to 0 of fcsr, frm bits 7 to 5 shown in bits 2 to 0; bits 31 to 8 of fcsr read zero and ignore writes; all three are members whenever EXT_F. -/
def Obligations.FcsrWindows : Prop :=
  ∀ (s : State) (rs1 : RegIdx), s.params.extF = true →
  (s.csr 0x001#12 = some { value := BitVec.ofNat 32 (s.fcsr.toNat % 32), writable := true, wmask := 0x1F#32, volatile := false } ∧
    s.csr 0x002#12 = some { value := BitVec.ofNat 32 (s.fcsr.toNat / 32 % 8), writable := true, wmask := 0x7#32, volatile := false } ∧
    s.csr 0x003#12 = some { value := BitVec.ofNat 32 (s.fcsr.toNat % 256), writable := true, wmask := 0xFF#32, volatile := false }) ∧
  (s.gives (.csrrw 0#5 rs1 0x001#12) fun t =>
    t.fflags.toNat = (s.readX rs1).toNat % 32 ∧ t.frm = s.frm ∧ t.csrs = s.csrs) ∧
  (s.gives (.csrrw 0#5 rs1 0x002#12) fun t =>
    t.frm.toNat = (s.readX rs1).toNat % 8 ∧ t.fflags = s.fflags ∧ t.csrs = s.csrs) ∧
  (s.gives (.csrrw 0#5 rs1 0x003#12) fun t => t.fcsr.toNat = (s.readX rs1).toNat % 256 ∧ t.csrs = s.csrs)

/-- 43_rv32i_system.md R206, R207: ecall is the word 0x00000073 and takes EnvironmentCall(0), ebreak is 0x00100073 and takes Breakpoint(pc); nothing is read or written. -/
def Obligations.EnvironmentInstructions : Prop :=
  ∀ s : State,
  encode .ecall = 0x00000073#32 ∧ s.gives .ecall (fun t => s.trapped t .environmentCall 0#32) ∧
  encode .ebreak = 0x00100073#32 ∧ s.gives .ebreak (fun t => s.trapped t .breakpoint s.pc)

/-- 43_rv32i_system.md R208, R209: fence changes only pc, whatever its ignored bits; fence.i empties stale and changes nothing else. -/
def Obligations.Fences : Prop :=
  ∀ (s : State) (rd rs1 : RegIdx) (imm : BitVec 12),
  (Instr.inRow (.fence rd rs1 imm) 0x0000707F#32 0x0000000F#32 ∧ s.gives (.fence rd rs1 imm) fun t => s.onlyPc t (s.pc + 4#32)) ∧
  (Instr.inRow (.fenceI rd rs1 imm) 0x0000707F#32 0x0000100F#32 ∧ s.gives (.fenceI rd rs1 imm) fun t =>
    s.keepsX t ∧ t.pc = s.pc + 4#32 ∧ s.keepsF t ∧ s.keepsCsrs t ∧ s.keepsMem t ∧ t.stale = [] ∧
      t.reservation = s.reservation ∧ s.keepsModel t)

/-- 44_m_multiply.md R220 to R224, R229: with EXT_M, the low half of the product, and bits 63 to 32 of the exact signed, signed by unsigned, and unsigned product. -/
def Obligations.Products : Prop :=
  ∀ (s : State) (rd rs1 rs2 : RegIdx), s.params.extM = true →
  (Instr.inRow (.mul rd rs1 rs2) 0xFE00707F#32 0x02000033#32 ∧
    s.gives (.mul rd rs1 rs2) (fun t => s.onlyX t rd (BitVec.ofNat 32 ((s.readX rs1).toNat * (s.readX rs2).toNat)))) ∧
  (Instr.inRow (.mulh rd rs1 rs2) 0xFE00707F#32 0x02001033#32 ∧
    s.gives (.mulh rd rs1 rs2) (fun t => s.onlyX t rd (BitVec.ofInt 32 ((s.readX rs1).toInt * (s.readX rs2).toInt / 2 ^ 32)))) ∧
  (Instr.inRow (.mulhsu rd rs1 rs2) 0xFE00707F#32 0x02002033#32 ∧
    s.gives (.mulhsu rd rs1 rs2) (fun t => s.onlyX t rd (BitVec.ofInt 32 ((s.readX rs1).toInt * ((s.readX rs2).toNat : Int) / 2 ^ 32)))) ∧
  (Instr.inRow (.mulhu rd rs1 rs2) 0xFE00707F#32 0x02003033#32 ∧
    s.gives (.mulhu rd rs1 rs2) (fun t => s.onlyX t rd (BitVec.ofNat 32 ((s.readX rs1).toNat * (s.readX rs2).toNat / 2 ^ 32))))

/-- 44_m_multiply.md R225 to R228, R230: rounding toward zero, a zero divisor, and signed overflow; nothing traps. The values for a zero divisor and for overflow are those of R230; that the model has them, and not the parameter that 93_implementation_defined.md U7 allows in their place, is its choice (log 12). -/
def Obligations.Quotients : Prop :=
  ∀ (s : State) (rd rs1 rs2 : RegIdx), s.params.extM = true →
  (Instr.inRow (.div rd rs1 rs2) 0xFE00707F#32 0x02004033#32 ∧
    s.gives (.div rd rs1 rs2) (fun t => s.onlyX t rd (if (s.readX rs2) = 0#32 then 0xFFFFFFFF#32 else if (s.readX rs1) = 0x80000000#32 ∧ (s.readX rs2) = 0xFFFFFFFF#32 then 0x80000000#32 else BitVec.ofInt 32 ((s.readX rs1).toInt.tdiv (s.readX rs2).toInt)))) ∧
  (Instr.inRow (.divu rd rs1 rs2) 0xFE00707F#32 0x02005033#32 ∧
    s.gives (.divu rd rs1 rs2) (fun t => s.onlyX t rd (if (s.readX rs2) = 0#32 then 0xFFFFFFFF#32 else BitVec.ofNat 32 ((s.readX rs1).toNat / (s.readX rs2).toNat)))) ∧
  (Instr.inRow (.rem rd rs1 rs2) 0xFE00707F#32 0x02006033#32 ∧
    s.gives (.rem rd rs1 rs2) (fun t => s.onlyX t rd (if (s.readX rs2) = 0#32 then (s.readX rs1) else if (s.readX rs1) = 0x80000000#32 ∧ (s.readX rs2) = 0xFFFFFFFF#32 then 0#32 else BitVec.ofInt 32 ((s.readX rs1).toInt.tmod (s.readX rs2).toInt)))) ∧
  (Instr.inRow (.remu rd rs1 rs2) 0xFE00707F#32 0x02007033#32 ∧
    s.gives (.remu rd rs1 rs2) (fun t => s.onlyX t rd (if (s.readX rs2) = 0#32 then (s.readX rs1) else BitVec.ofNat 32 ((s.readX rs1).toNat % (s.readX rs2).toNat))))

/-- 44_m_multiply.md R230: dividend = divisor * quotient + remainder, the remainder smaller than the divisor and with the sign of the dividend, read from the two results; the unsigned pair likewise. -/
def Obligations.DivisionIdentity : Prop :=
  ∀ (s : State) (rd rs1 rs2 : RegIdx), s.params.extM = true → rd ≠ 0#5 → s.readX rs2 ≠ 0#32 →
  (¬ (s.readX rs1 = 0x80000000#32 ∧ s.readX rs2 = 0xFFFFFFFF#32) →
    ∃ q r, exec (.div rd rs1 rs2) s = .next q ∧ exec (.rem rd rs1 rs2) s = .next r ∧
      (s.readX rs1).toInt = (s.readX rs2).toInt * (q.readX rd).toInt + (r.readX rd).toInt ∧
      (r.readX rd).toInt.natAbs < (s.readX rs2).toInt.natAbs ∧
      (0 ≤ (s.readX rs1).toInt → 0 ≤ (r.readX rd).toInt) ∧ ((s.readX rs1).toInt ≤ 0 → (r.readX rd).toInt ≤ 0)) ∧
  (∃ q r, exec (.divu rd rs1 rs2) s = .next q ∧ exec (.remu rd rs1 rs2) s = .next r ∧
      (s.readX rs1).toNat = (s.readX rs2).toNat * (q.readX rd).toNat + (r.readX rd).toNat ∧
      (r.readX rd).toNat < (s.readX rs2).toNat)

/-- 30_encoding.md R103, R104: a row whose EXT parameter is false, or that needs XLEN = 64, raises IllegalInstruction with its word and changes nothing. It covers EXT_D without EXT_F, which 00_scope.md R3 rules out and R104 does not settle: that no .d row is admitted there is the model's choice (log 17). -/
def Obligations.RowsNotAdmittedAreIllegal : Prop :=
  ∀ (i : Instr) (s : State), i.group.admitted s.params = false →
    s.gives i fun t => s.trapped t .illegalInstruction (encode i)

/-- The 21 rows that need XLEN = 64 take IllegalInstruction in every configuration (30_encoding.md R104; 45_fd_float.md R281, R283, R288, R289, R292, R293, R296, R297, R300, R301; 46_a_atomic.md R333 to R353, the odd ones). -/
def Obligations.RowsThatNeedXlen64 : Prop :=
  ∀ (s : State) (rd rs1 rs2 : RegIdx) (rm : BitVec 3) (aq rl : BitVec 1),
  s.gives (.fmvDX rd rs1) (fun t => s.trapped t .illegalInstruction (encode (.fmvDX rd rs1))) ∧
  s.gives (.fmvXD rd rs1) (fun t => s.trapped t .illegalInstruction (encode (.fmvXD rd rs1))) ∧
  s.gives (.fcvtSL rd rs1 rm) (fun t => s.trapped t .illegalInstruction (encode (.fcvtSL rd rs1 rm))) ∧
  s.gives (.fcvtDL rd rs1 rm) (fun t => s.trapped t .illegalInstruction (encode (.fcvtDL rd rs1 rm))) ∧
  s.gives (.fcvtSLu rd rs1 rm) (fun t => s.trapped t .illegalInstruction (encode (.fcvtSLu rd rs1 rm))) ∧
  s.gives (.fcvtDLu rd rs1 rm) (fun t => s.trapped t .illegalInstruction (encode (.fcvtDLu rd rs1 rm))) ∧
  s.gives (.fcvtLS rd rs1 rm) (fun t => s.trapped t .illegalInstruction (encode (.fcvtLS rd rs1 rm))) ∧
  s.gives (.fcvtLD rd rs1 rm) (fun t => s.trapped t .illegalInstruction (encode (.fcvtLD rd rs1 rm))) ∧
  s.gives (.fcvtLuS rd rs1 rm) (fun t => s.trapped t .illegalInstruction (encode (.fcvtLuS rd rs1 rm))) ∧
  s.gives (.fcvtLuD rd rs1 rm) (fun t => s.trapped t .illegalInstruction (encode (.fcvtLuD rd rs1 rm))) ∧
  s.gives (.amoaddD rd rs1 rs2 aq rl) (fun t => s.trapped t .illegalInstruction (encode (.amoaddD rd rs1 rs2 aq rl))) ∧
  s.gives (.amoandD rd rs1 rs2 aq rl) (fun t => s.trapped t .illegalInstruction (encode (.amoandD rd rs1 rs2 aq rl))) ∧
  s.gives (.amomaxD rd rs1 rs2 aq rl) (fun t => s.trapped t .illegalInstruction (encode (.amomaxD rd rs1 rs2 aq rl))) ∧
  s.gives (.amomaxuD rd rs1 rs2 aq rl) (fun t => s.trapped t .illegalInstruction (encode (.amomaxuD rd rs1 rs2 aq rl))) ∧
  s.gives (.amominD rd rs1 rs2 aq rl) (fun t => s.trapped t .illegalInstruction (encode (.amominD rd rs1 rs2 aq rl))) ∧
  s.gives (.amominuD rd rs1 rs2 aq rl) (fun t => s.trapped t .illegalInstruction (encode (.amominuD rd rs1 rs2 aq rl))) ∧
  s.gives (.amoorD rd rs1 rs2 aq rl) (fun t => s.trapped t .illegalInstruction (encode (.amoorD rd rs1 rs2 aq rl))) ∧
  s.gives (.amoswapD rd rs1 rs2 aq rl) (fun t => s.trapped t .illegalInstruction (encode (.amoswapD rd rs1 rs2 aq rl))) ∧
  s.gives (.amoxorD rd rs1 rs2 aq rl) (fun t => s.trapped t .illegalInstruction (encode (.amoxorD rd rs1 rs2 aq rl))) ∧
  s.gives (.lrD rd rs1 aq rl) (fun t => s.trapped t .illegalInstruction (encode (.lrD rd rs1 aq rl))) ∧
  s.gives (.scD rd rs1 rs2 aq rl) (fun t => s.trapped t .illegalInstruction (encode (.scD rd rs1 rs2 aq rl)))

/-- 45_fd_float.md R240 to R243, R312: the checks of the integer loads and stores; flw boxes, fsw takes the low 32 bits unchecked, fld and fsd move all 64 bits, the low word first. That the upper half of a slot is zero when FLEN is 32 is the model's choice (log 15). -/
def Obligations.FpLoadsAndStores : Prop :=
  ∀ (s : State) (rd rs1 rs2 : RegIdx) (imm : BitVec 12), s.params.extF = true →
  (Instr.inRow (.flw rd rs1 imm) 0x0000707F#32 0x00002007#32 ∧
    s.loadsFrom (.flw rd rs1 imm) (s.readX rs1 + imm.signExtend 32) 4 fun t => s.onlyFMove t rd ((if s.params.extD then 0xFFFFFFFF#32 else 0#32) ++ s.wordAt (s.readX rs1 + imm.signExtend 32))) ∧
  (Instr.inRow (.fsw rs1 rs2 imm) 0x0000707F#32 0x00002027#32 ∧
    s.storesTo (.fsw rs1 rs2 imm) (s.readX rs1 + imm.signExtend 32) (littleEndian (BitVec.ofNat 32 (s.readD rs2).toNat))) ∧
  (s.params.extD = true →
    (Instr.inRow (.fld rd rs1 imm) 0x0000707F#32 0x00003007#32 ∧
      s.loadsFrom (.fld rd rs1 imm) (s.readX rs1 + imm.signExtend 32) 8 fun t => s.onlyFMove t rd (s.wordAt ((s.readX rs1 + imm.signExtend 32) + 4#32) ++ s.wordAt (s.readX rs1 + imm.signExtend 32))) ∧
    (Instr.inRow (.fsd rs1 rs2 imm) 0x0000707F#32 0x00003027#32 ∧
      s.storesTo (.fsd rs1 rs2 imm) (s.readX rs1 + imm.signExtend 32) (littleEndian (BitVec.ofNat 32 (s.readD rs2).toNat) ++
        littleEndian (BitVec.ofNat 32 ((s.readD rs2).toNat / 2 ^ 32)))))

/-- 45_fd_float.md R244 to R253, R312 to R314, R316: with an admitted row and an effective rounding mode m, the FP_NUMERICS function of m and the operands (unboxed in single) gives the result and the flags that accrue; nothing else changes. In single the operands are State.unboxed and the result is boxed, both as R312 says (10_state.md R34); that an unused upper half is 0 when FLEN = 32 is the model's choice (log 15). -/
def Obligations.FpArithmetic : Prop :=
  ∀ (s : State) (rd rs1 rs2 : RegIdx) (rm : BitVec 3) (m : RoundingMode), s.params.extF = true → s.roundsIn rm m →
  s.gives (.faddS rd rs1 rs2 rm) (fun t => s.onlyF t rd (boxed s.params ((numericsOf s.params).single.add m (s.unboxed rs1) (s.unboxed rs2)).1) ((numericsOf s.params).single.add m (s.unboxed rs1) (s.unboxed rs2)).2) ∧
  s.gives (.fsubS rd rs1 rs2 rm) (fun t => s.onlyF t rd (boxed s.params ((numericsOf s.params).single.sub m (s.unboxed rs1) (s.unboxed rs2)).1) ((numericsOf s.params).single.sub m (s.unboxed rs1) (s.unboxed rs2)).2) ∧
  s.gives (.fmulS rd rs1 rs2 rm) (fun t => s.onlyF t rd (boxed s.params ((numericsOf s.params).single.mul m (s.unboxed rs1) (s.unboxed rs2)).1) ((numericsOf s.params).single.mul m (s.unboxed rs1) (s.unboxed rs2)).2) ∧
  s.gives (.fdivS rd rs1 rs2 rm) (fun t => s.onlyF t rd (boxed s.params ((numericsOf s.params).single.div m (s.unboxed rs1) (s.unboxed rs2)).1) ((numericsOf s.params).single.div m (s.unboxed rs1) (s.unboxed rs2)).2) ∧
  s.gives (.fsqrtS rd rs1 rm) (fun t => s.onlyF t rd (boxed s.params ((numericsOf s.params).single.sqrt m (s.unboxed rs1)).1) ((numericsOf s.params).single.sqrt m (s.unboxed rs1)).2) ∧
  (s.params.extD = true →
    s.gives (.faddD rd rs1 rs2 rm) (fun t => s.onlyF t rd ((numericsOf s.params).double.add m (s.readD rs1) (s.readD rs2)).1 ((numericsOf s.params).double.add m (s.readD rs1) (s.readD rs2)).2) ∧
    s.gives (.fsubD rd rs1 rs2 rm) (fun t => s.onlyF t rd ((numericsOf s.params).double.sub m (s.readD rs1) (s.readD rs2)).1 ((numericsOf s.params).double.sub m (s.readD rs1) (s.readD rs2)).2) ∧
    s.gives (.fmulD rd rs1 rs2 rm) (fun t => s.onlyF t rd ((numericsOf s.params).double.mul m (s.readD rs1) (s.readD rs2)).1 ((numericsOf s.params).double.mul m (s.readD rs1) (s.readD rs2)).2) ∧
    s.gives (.fdivD rd rs1 rs2 rm) (fun t => s.onlyF t rd ((numericsOf s.params).double.div m (s.readD rs1) (s.readD rs2)).1 ((numericsOf s.params).double.div m (s.readD rs1) (s.readD rs2)).2) ∧
    s.gives (.fsqrtD rd rs1 rm) (fun t => s.onlyF t rd ((numericsOf s.params).double.sqrt m (s.readD rs1)).1 ((numericsOf s.params).double.sqrt m (s.readD rs1)).2))

/-- 45_fd_float.md R254 to R261, R316: one rounding of a x b + c, the negated forms by flipping the sign of the product's first factor or of the addend. In single the operands are State.unboxed and the result is boxed, both as R312 says (10_state.md R34); that an unused upper half is 0 when FLEN = 32 is the model's choice (log 15). -/
def Obligations.FpFusedMultiplyAdd : Prop :=
  ∀ (s : State) (rd rs1 rs2 rs3 : RegIdx) (rm : BitVec 3) (m : RoundingMode), s.params.extF = true → s.roundsIn rm m →
  s.gives (.fmaddS rd rs1 rs2 rs3 rm) (fun t => s.onlyF t rd (boxed s.params ((numericsOf s.params).single.fma m (s.unboxed rs1) (s.unboxed rs2) (s.unboxed rs3)).1) ((numericsOf s.params).single.fma m (s.unboxed rs1) (s.unboxed rs2) (s.unboxed rs3)).2) ∧
  s.gives (.fmsubS rd rs1 rs2 rs3 rm) (fun t => s.onlyF t rd (boxed s.params ((numericsOf s.params).single.fma m (s.unboxed rs1) (s.unboxed rs2) ((s.unboxed rs3) ^^^ 0x80000000#32)).1) ((numericsOf s.params).single.fma m (s.unboxed rs1) (s.unboxed rs2) ((s.unboxed rs3) ^^^ 0x80000000#32)).2) ∧
  s.gives (.fnmsubS rd rs1 rs2 rs3 rm) (fun t => s.onlyF t rd (boxed s.params ((numericsOf s.params).single.fma m ((s.unboxed rs1) ^^^ 0x80000000#32) (s.unboxed rs2) (s.unboxed rs3)).1) ((numericsOf s.params).single.fma m ((s.unboxed rs1) ^^^ 0x80000000#32) (s.unboxed rs2) (s.unboxed rs3)).2) ∧
  s.gives (.fnmaddS rd rs1 rs2 rs3 rm) (fun t => s.onlyF t rd (boxed s.params ((numericsOf s.params).single.fma m ((s.unboxed rs1) ^^^ 0x80000000#32) (s.unboxed rs2) ((s.unboxed rs3) ^^^ 0x80000000#32)).1) ((numericsOf s.params).single.fma m ((s.unboxed rs1) ^^^ 0x80000000#32) (s.unboxed rs2) ((s.unboxed rs3) ^^^ 0x80000000#32)).2) ∧
  (s.params.extD = true →
    s.gives (.fmaddD rd rs1 rs2 rs3 rm) (fun t => s.onlyF t rd ((numericsOf s.params).double.fma m (s.readD rs1) (s.readD rs2) (s.readD rs3)).1 ((numericsOf s.params).double.fma m (s.readD rs1) (s.readD rs2) (s.readD rs3)).2) ∧
    s.gives (.fmsubD rd rs1 rs2 rs3 rm) (fun t => s.onlyF t rd ((numericsOf s.params).double.fma m (s.readD rs1) (s.readD rs2) ((s.readD rs3) ^^^ 0x8000000000000000#64)).1 ((numericsOf s.params).double.fma m (s.readD rs1) (s.readD rs2) ((s.readD rs3) ^^^ 0x8000000000000000#64)).2) ∧
    s.gives (.fnmsubD rd rs1 rs2 rs3 rm) (fun t => s.onlyF t rd ((numericsOf s.params).double.fma m ((s.readD rs1) ^^^ 0x8000000000000000#64) (s.readD rs2) (s.readD rs3)).1 ((numericsOf s.params).double.fma m ((s.readD rs1) ^^^ 0x8000000000000000#64) (s.readD rs2) (s.readD rs3)).2) ∧
    s.gives (.fnmaddD rd rs1 rs2 rs3 rm) (fun t => s.onlyF t rd ((numericsOf s.params).double.fma m ((s.readD rs1) ^^^ 0x8000000000000000#64) (s.readD rs2) ((s.readD rs3) ^^^ 0x8000000000000000#64)).1 ((numericsOf s.params).double.fma m ((s.readD rs1) ^^^ 0x8000000000000000#64) (s.readD rs2) ((s.readD rs3) ^^^ 0x8000000000000000#64)).2))

/-- 45_fd_float.md R262 to R267: every bit but the sign comes from the first operand, the sign from the second, its complement, or the exclusive or; no flag, no rounding, NaNs as they are. In single the operands are State.unboxed: with FLEN = 64 the canonical NaN where the upper half is not all ones (R312, 10_state.md R34); the result is boxed. -/
def Obligations.FpSignInjection : Prop :=
  ∀ (s : State) (rd rs1 rs2 : RegIdx), s.params.extF = true →
  (Instr.inRow (.fsgnjS rd rs1 rs2) 0xFE00707F#32 0x20000053#32 ∧ s.gives (.fsgnjS rd rs1 rs2) fun t => ∃ v : DWord, s.onlyFMove t rd v ∧
    (s.params.extD = true → v.extractLsb' 32 32 = 0xFFFFFFFF#32) ∧ (∀ k < 31, v.getLsbD k = (s.unboxed rs1).getLsbD k) ∧ v.getLsbD 31 = ((s.unboxed rs2).getLsbD 31)) ∧
  (Instr.inRow (.fsgnjnS rd rs1 rs2) 0xFE00707F#32 0x20001053#32 ∧ s.gives (.fsgnjnS rd rs1 rs2) fun t => ∃ v : DWord, s.onlyFMove t rd v ∧
    (s.params.extD = true → v.extractLsb' 32 32 = 0xFFFFFFFF#32) ∧ (∀ k < 31, v.getLsbD k = (s.unboxed rs1).getLsbD k) ∧ v.getLsbD 31 = (!(s.unboxed rs2).getLsbD 31)) ∧
  (Instr.inRow (.fsgnjxS rd rs1 rs2) 0xFE00707F#32 0x20002053#32 ∧ s.gives (.fsgnjxS rd rs1 rs2) fun t => ∃ v : DWord, s.onlyFMove t rd v ∧
    (s.params.extD = true → v.extractLsb' 32 32 = 0xFFFFFFFF#32) ∧ (∀ k < 31, v.getLsbD k = (s.unboxed rs1).getLsbD k) ∧ v.getLsbD 31 = ((s.unboxed rs1).getLsbD 31 != (s.unboxed rs2).getLsbD 31)) ∧
  (s.params.extD = true →
    (Instr.inRow (.fsgnjD rd rs1 rs2) 0xFE00707F#32 0x22000053#32 ∧ s.gives (.fsgnjD rd rs1 rs2) fun t => ∃ v : DWord, s.onlyFMove t rd v ∧
      (∀ k < 63, v.getLsbD k = (s.readD rs1).getLsbD k) ∧ v.getLsbD 63 = ((s.readD rs2).getLsbD 63)) ∧
    (Instr.inRow (.fsgnjnD rd rs1 rs2) 0xFE00707F#32 0x22001053#32 ∧ s.gives (.fsgnjnD rd rs1 rs2) fun t => ∃ v : DWord, s.onlyFMove t rd v ∧
      (∀ k < 63, v.getLsbD k = (s.readD rs1).getLsbD k) ∧ v.getLsbD 63 = (!(s.readD rs2).getLsbD 63)) ∧
    (Instr.inRow (.fsgnjxD rd rs1 rs2) 0xFE00707F#32 0x22002053#32 ∧ s.gives (.fsgnjxD rd rs1 rs2) fun t => ∃ v : DWord, s.onlyFMove t rd v ∧
      (∀ k < 63, v.getLsbD k = (s.readD rs1).getLsbD k) ∧ v.getLsbD 63 = ((s.readD rs1).getLsbD 63 != (s.readD rs2).getLsbD 63)))

/-- 45_fd_float.md R268 to R277: fmin and fmax write f[rd], feq, flt and fle write x[rd], by the FP_NUMERICS functions; the flags accrue. In single the operands are State.unboxed and the result is boxed, both as R312 says (10_state.md R34); that an unused upper half is 0 when FLEN = 32 is the model's choice (log 15). -/
def Obligations.FpSelectAndCompare : Prop :=
  ∀ (s : State) (rd rs1 rs2 : RegIdx), s.params.extF = true →
  s.gives (.fminS rd rs1 rs2) (fun t => s.onlyF t rd (boxed s.params ((numericsOf s.params).single.min (s.unboxed rs1) (s.unboxed rs2)).1) ((numericsOf s.params).single.min (s.unboxed rs1) (s.unboxed rs2)).2) ∧
  s.gives (.fmaxS rd rs1 rs2) (fun t => s.onlyF t rd (boxed s.params ((numericsOf s.params).single.max (s.unboxed rs1) (s.unboxed rs2)).1) ((numericsOf s.params).single.max (s.unboxed rs1) (s.unboxed rs2)).2) ∧
  s.gives (.feqS rd rs1 rs2) (fun t => s.onlyFlagsX t rd (BitVec.ofNat 32 ((numericsOf s.params).single.eq (s.unboxed rs1) (s.unboxed rs2)).1.toNat) ((numericsOf s.params).single.eq (s.unboxed rs1) (s.unboxed rs2)).2) ∧
  s.gives (.fltS rd rs1 rs2) (fun t => s.onlyFlagsX t rd (BitVec.ofNat 32 ((numericsOf s.params).single.lt (s.unboxed rs1) (s.unboxed rs2)).1.toNat) ((numericsOf s.params).single.lt (s.unboxed rs1) (s.unboxed rs2)).2) ∧
  s.gives (.fleS rd rs1 rs2) (fun t => s.onlyFlagsX t rd (BitVec.ofNat 32 ((numericsOf s.params).single.le (s.unboxed rs1) (s.unboxed rs2)).1.toNat) ((numericsOf s.params).single.le (s.unboxed rs1) (s.unboxed rs2)).2) ∧
  (s.params.extD = true →
    s.gives (.fminD rd rs1 rs2) (fun t => s.onlyF t rd ((numericsOf s.params).double.min (s.readD rs1) (s.readD rs2)).1 ((numericsOf s.params).double.min (s.readD rs1) (s.readD rs2)).2) ∧
    s.gives (.fmaxD rd rs1 rs2) (fun t => s.onlyF t rd ((numericsOf s.params).double.max (s.readD rs1) (s.readD rs2)).1 ((numericsOf s.params).double.max (s.readD rs1) (s.readD rs2)).2) ∧
    s.gives (.feqD rd rs1 rs2) (fun t => s.onlyFlagsX t rd (BitVec.ofNat 32 ((numericsOf s.params).double.eq (s.readD rs1) (s.readD rs2)).1.toNat) ((numericsOf s.params).double.eq (s.readD rs1) (s.readD rs2)).2) ∧
    s.gives (.fltD rd rs1 rs2) (fun t => s.onlyFlagsX t rd (BitVec.ofNat 32 ((numericsOf s.params).double.lt (s.readD rs1) (s.readD rs2)).1.toNat) ((numericsOf s.params).double.lt (s.readD rs1) (s.readD rs2)).2) ∧
    s.gives (.fleD rd rs1 rs2) (fun t => s.onlyFlagsX t rd (BitVec.ofNat 32 ((numericsOf s.params).double.le (s.readD rs1) (s.readD rs2)).1.toNat) ((numericsOf s.params).double.le (s.readD rs1) (s.readD rs2)).2))

/-- 45_fd_float.md R278 to R280, R282: fclass writes its 10-bit mask zero-extended, fmv.s.x boxes the bits of x[rs1], fmv.x.s copies the low 32 bits unchecked; no flag. fclass.s reads its operand through State.unboxed: with FLEN = 64 the canonical NaN where the upper half is not all ones (R312); that an unused upper half is 0 when FLEN = 32 is the model's choice (log 15). -/
def Obligations.FpMovesAndClasses : Prop :=
  ∀ (s : State) (rd rs1 : RegIdx), s.params.extF = true →
  (s.gives (.fclassS rd rs1) fun t => s.onlyX t rd (BitVec.ofNat 32 ((numericsOf s.params).single.classify (s.unboxed rs1)).toNat)) ∧
  (Instr.inRow (.fmvSX rd rs1) 0xFFF0707F#32 0xF0000053#32 ∧
    s.gives (.fmvSX rd rs1) fun t => s.onlyFMove t rd ((if s.params.extD then 0xFFFFFFFF#32 else 0#32) ++ s.readX rs1)) ∧
  (Instr.inRow (.fmvXS rd rs1) 0xFFF0707F#32 0xE0000053#32 ∧
    s.gives (.fmvXS rd rs1) fun t => s.onlyX t rd (BitVec.ofNat 32 (s.readD rs1).toNat)) ∧
  (s.params.extD = true →
    s.gives (.fclassD rd rs1) fun t => s.onlyX t rd (BitVec.ofNat 32 ((numericsOf s.params).double.classify (s.readD rs1)).toNat))

/-- 45_fd_float.md R284 to R287, R290, R291, R294, R295, R298, R299: the FP_NUMERICS function of the mode and the operand gives the result and the flags. In single the operands are State.unboxed and the result is boxed, both as R312 says (10_state.md R34); that an unused upper half is 0 when FLEN = 32 is the model's choice (log 15). -/
def Obligations.FpConversions : Prop :=
  ∀ (s : State) (rd rs1 : RegIdx) (rm : BitVec 3) (m : RoundingMode), s.params.extF = true → s.roundsIn rm m →
  s.gives (.fcvtSW rd rs1 rm) (fun t => s.onlyF t rd (boxed s.params ((numericsOf s.params).single.ofInt m (s.readX rs1)).1) ((numericsOf s.params).single.ofInt m (s.readX rs1)).2) ∧
  s.gives (.fcvtSWu rd rs1 rm) (fun t => s.onlyF t rd (boxed s.params ((numericsOf s.params).single.ofUInt m (s.readX rs1)).1) ((numericsOf s.params).single.ofUInt m (s.readX rs1)).2) ∧
  s.gives (.fcvtWS rd rs1 rm) (fun t => s.onlyFlagsX t rd ((numericsOf s.params).single.toInt m (s.unboxed rs1)).1 ((numericsOf s.params).single.toInt m (s.unboxed rs1)).2) ∧
  s.gives (.fcvtWuS rd rs1 rm) (fun t => s.onlyFlagsX t rd ((numericsOf s.params).single.toUInt m (s.unboxed rs1)).1 ((numericsOf s.params).single.toUInt m (s.unboxed rs1)).2) ∧
  (s.params.extD = true →
    s.gives (.fcvtDS rd rs1 rm) (fun t => s.onlyF t rd ((numericsOf s.params).widen m (s.unboxed rs1)).1 ((numericsOf s.params).widen m (s.unboxed rs1)).2) ∧
    s.gives (.fcvtSD rd rs1 rm) (fun t => s.onlyF t rd (boxed s.params ((numericsOf s.params).narrow m (s.readD rs1)).1) ((numericsOf s.params).narrow m (s.readD rs1)).2) ∧
    s.gives (.fcvtDW rd rs1 rm) (fun t => s.onlyF t rd ((numericsOf s.params).double.ofInt m (s.readX rs1)).1 ((numericsOf s.params).double.ofInt m (s.readX rs1)).2) ∧
    s.gives (.fcvtDWu rd rs1 rm) (fun t => s.onlyF t rd ((numericsOf s.params).double.ofUInt m (s.readX rs1)).1 ((numericsOf s.params).double.ofUInt m (s.readX rs1)).2) ∧
    s.gives (.fcvtWD rd rs1 rm) (fun t => s.onlyFlagsX t rd ((numericsOf s.params).double.toInt m (s.readD rs1)).1 ((numericsOf s.params).double.toInt m (s.readD rs1)).2) ∧
    s.gives (.fcvtWuD rd rs1 rm) (fun t => s.onlyFlagsX t rd ((numericsOf s.params).double.toUInt m (s.readD rs1)).1 ((numericsOf s.params).double.toUInt m (s.readD rs1)).2))

/-- 45_fd_float.md R313: rm 101 or 110, or rm 111 while frm is 101 to 111, is IllegalInstruction with the word; and exactly the other values have an effective mode, which is unique. For the exact conversions fcvt.d.s, fcvt.d.w and fcvt.d.wu, whose rm has no effect otherwise, the check is deduced from the exceptions that R284, R287 and R291 list (log 20). -/
def Obligations.ReservedRoundingModes : Prop :=
  (∀ (i : Instr) (s : State) (rm : BitVec 3), i.rmField = some rm → s.rmReserved rm →
    s.gives i fun t => s.trapped t .illegalInstruction (encode i)) ∧
  (∀ (s : State) (rm : BitVec 3), s.rmReserved rm ↔ ¬ ∃ m, s.roundsIn rm m) ∧
  (∀ (s : State) (rm : BitVec 3) (m n : RoundingMode), s.roundsIn rm m → s.roundsIn rm n → m = n)

/-- 45_fd_float.md R314: a flag stays set until software clears it with a CSR instruction; no other instruction writes frm or another CSR. -/
def Obligations.FlagsOnlyAccrue : Prop :=
  ∀ (i : Instr) (s t : State), i.isCsr = false → exec i s = .next t →
    (∀ k, s.fflags.getLsbD k = true → t.fflags.getLsbD k = true) ∧ t.frm = s.frm ∧ t.csrs = s.csrs

/-- 45_fd_float.md R315 of the intended FP_NUMERICS (R316): a NaN operand gives the canonical NaN, no payload goes through, and NV is raised for a signaling one (for fmin and fmax when both operands are NaNs). For the fused form NV is raised at least for a signaling one (it is raised too for zero times infinity). -/
def Obligations.NanOperandsGiveTheCanonicalNan : Prop :=
  (∀ (m : RoundingMode) (a b : Word), nanS a ∨ nanS b →
    (ieeeNumerics.single.add m a b).1 = 0x7FC00000#32 ∧ ((ieeeNumerics.single.add m a b).2.getLsbD 4 = true ↔ signalingS a ∨ signalingS b) ∧
    (ieeeNumerics.single.sub m a b).1 = 0x7FC00000#32 ∧ ((ieeeNumerics.single.sub m a b).2.getLsbD 4 = true ↔ signalingS a ∨ signalingS b) ∧
    (ieeeNumerics.single.mul m a b).1 = 0x7FC00000#32 ∧ ((ieeeNumerics.single.mul m a b).2.getLsbD 4 = true ↔ signalingS a ∨ signalingS b) ∧
    (ieeeNumerics.single.div m a b).1 = 0x7FC00000#32 ∧ ((ieeeNumerics.single.div m a b).2.getLsbD 4 = true ↔ signalingS a ∨ signalingS b)) ∧
  (∀ (m : RoundingMode) (a : Word), nanS a →
    (ieeeNumerics.single.sqrt m a).1 = 0x7FC00000#32 ∧ ((ieeeNumerics.single.sqrt m a).2.getLsbD 4 = true ↔ signalingS a)) ∧
  (∀ (m : RoundingMode) (a b c : Word), nanS a ∨ nanS b ∨ nanS c →
    (ieeeNumerics.single.fma m a b c).1 = 0x7FC00000#32 ∧ (signalingS a ∨ signalingS b ∨ signalingS c → (ieeeNumerics.single.fma m a b c).2.getLsbD 4 = true)) ∧
  (∀ a b : Word, nanS a → nanS b → (ieeeNumerics.single.min a b).1 = 0x7FC00000#32 ∧ (ieeeNumerics.single.max a b).1 = 0x7FC00000#32) ∧
  (∀ (m : RoundingMode) (a b : DWord), nanD a ∨ nanD b →
    (ieeeNumerics.double.add m a b).1 = 0x7FF8000000000000#64 ∧ ((ieeeNumerics.double.add m a b).2.getLsbD 4 = true ↔ signalingD a ∨ signalingD b) ∧
    (ieeeNumerics.double.sub m a b).1 = 0x7FF8000000000000#64 ∧ ((ieeeNumerics.double.sub m a b).2.getLsbD 4 = true ↔ signalingD a ∨ signalingD b) ∧
    (ieeeNumerics.double.mul m a b).1 = 0x7FF8000000000000#64 ∧ ((ieeeNumerics.double.mul m a b).2.getLsbD 4 = true ↔ signalingD a ∨ signalingD b) ∧
    (ieeeNumerics.double.div m a b).1 = 0x7FF8000000000000#64 ∧ ((ieeeNumerics.double.div m a b).2.getLsbD 4 = true ↔ signalingD a ∨ signalingD b)) ∧
  (∀ (m : RoundingMode) (a : DWord), nanD a →
    (ieeeNumerics.double.sqrt m a).1 = 0x7FF8000000000000#64 ∧ ((ieeeNumerics.double.sqrt m a).2.getLsbD 4 = true ↔ signalingD a)) ∧
  (∀ (m : RoundingMode) (a b c : DWord), nanD a ∨ nanD b ∨ nanD c →
    (ieeeNumerics.double.fma m a b c).1 = 0x7FF8000000000000#64 ∧ (signalingD a ∨ signalingD b ∨ signalingD c → (ieeeNumerics.double.fma m a b c).2.getLsbD 4 = true)) ∧
  (∀ a b : DWord, nanD a → nanD b → (ieeeNumerics.double.min a b).1 = 0x7FF8000000000000#64 ∧ (ieeeNumerics.double.max a b).1 = 0x7FF8000000000000#64) ∧
  (∀ (m : RoundingMode) (a : Word), nanS a → (ieeeNumerics.widen m a).1 = 0x7FF8000000000000#64 ∧
    ((ieeeNumerics.widen m a).2.getLsbD 4 = true ↔ signalingS a)) ∧
  (∀ (m : RoundingMode) (a : DWord), nanD a → (ieeeNumerics.narrow m a).1 = 0x7FC00000#32 ∧
    ((ieeeNumerics.narrow m a).2.getLsbD 4 = true ↔ signalingD a))

/-- 45_fd_float.md R319 of the intended FP_NUMERICS: minus infinity, negative normal, negative subnormal, -0, +0, positive subnormal, positive normal, plus infinity, signaling NaN, quiet NaN, from bit 0 up; each pattern has exactly one of them. -/
def Obligations.ClassMasks : Prop :=
  (∀ a : Word, (a.toNat = 0xFF800000 → (ieeeNumerics.single.classify a) = 1#10) ∧
    (0x80800000 ≤ a.toNat ∧ a.toNat < 0xFF800000 → (ieeeNumerics.single.classify a) = 2#10) ∧
    (0x80000000 < a.toNat ∧ a.toNat < 0x80800000 → (ieeeNumerics.single.classify a) = 4#10) ∧
    (a.toNat = 0x80000000 → (ieeeNumerics.single.classify a) = 8#10) ∧
    (a.toNat = 0 → (ieeeNumerics.single.classify a) = 16#10) ∧
    (0 < a.toNat ∧ a.toNat < 0x800000 → (ieeeNumerics.single.classify a) = 32#10) ∧
    (0x800000 ≤ a.toNat ∧ a.toNat < 0x7F800000 → (ieeeNumerics.single.classify a) = 64#10) ∧
    (a.toNat = 0x7F800000 → (ieeeNumerics.single.classify a) = 128#10) ∧
    (signalingS a → (ieeeNumerics.single.classify a) = 256#10) ∧
    (nanS a ∧ ¬ signalingS a → (ieeeNumerics.single.classify a) = 512#10)) ∧
  (∀ a : DWord, (a.toNat = 0xFFF0000000000000 → (ieeeNumerics.double.classify a) = 1#10) ∧
    (0x8010000000000000 ≤ a.toNat ∧ a.toNat < 0xFFF0000000000000 → (ieeeNumerics.double.classify a) = 2#10) ∧
    (0x8000000000000000 < a.toNat ∧ a.toNat < 0x8010000000000000 → (ieeeNumerics.double.classify a) = 4#10) ∧
    (a.toNat = 0x8000000000000000 → (ieeeNumerics.double.classify a) = 8#10) ∧
    (a.toNat = 0 → (ieeeNumerics.double.classify a) = 16#10) ∧
    (0 < a.toNat ∧ a.toNat < 0x10000000000000 → (ieeeNumerics.double.classify a) = 32#10) ∧
    (0x10000000000000 ≤ a.toNat ∧ a.toNat < 0x7FF0000000000000 → (ieeeNumerics.double.classify a) = 64#10) ∧
    (a.toNat = 0x7FF0000000000000 → (ieeeNumerics.double.classify a) = 128#10) ∧
    (signalingD a → (ieeeNumerics.double.classify a) = 256#10) ∧
    (nanD a ∧ ¬ signalingD a → (ieeeNumerics.double.classify a) = 512#10))

/-- 45_fd_float.md R317, R318 of the intended FP_NUMERICS, in both precisions: what feq, flt, fle, fmin and fmax answer on every pair of operands, by the order of the numbers (R311), and all their flags. That fmin and fmax of one signaling NaN give the other operand is the model's choice between the editions of 93_implementation_defined.md U9 (log 12). -/
def Obligations.MinMaxAndComparisons : Prop :=
  SelectionOf 8 23 32 ieeeNumerics.single nanS signalingS ∧
  SelectionOf 11 52 64 ieeeNumerics.double nanD signalingD

/-- 45_fd_float.md R320 of the intended FP_NUMERICS: NaNs and infinities, with NV and without NX, in every mode. -/
def Obligations.ConversionsToIntegerSaturate : Prop :=
  (∀ (m : RoundingMode) (a : Word), nanS a →
    ieeeNumerics.single.toInt m a = (0x7FFFFFFF#32, 0b10000#5) ∧ ieeeNumerics.single.toUInt m a = (0xFFFFFFFF#32, 0b10000#5)) ∧
  (∀ m : RoundingMode,
    ieeeNumerics.single.toInt m 0x7F800000#32 = (0x7FFFFFFF#32, 0b10000#5) ∧ ieeeNumerics.single.toInt m 0xFF800000#32 = (0x80000000#32, 0b10000#5) ∧
    ieeeNumerics.single.toUInt m 0x7F800000#32 = (0xFFFFFFFF#32, 0b10000#5) ∧ ieeeNumerics.single.toUInt m 0xFF800000#32 = (0x00000000#32, 0b10000#5)) ∧
  (∀ (m : RoundingMode) (a : DWord), nanD a →
    ieeeNumerics.double.toInt m a = (0x7FFFFFFF#32, 0b10000#5) ∧ ieeeNumerics.double.toUInt m a = (0xFFFFFFFF#32, 0b10000#5)) ∧
  (∀ m : RoundingMode,
    ieeeNumerics.double.toInt m 0x7FF0000000000000#64 = (0x7FFFFFFF#32, 0b10000#5) ∧ ieeeNumerics.double.toInt m 0xFFF0000000000000#64 = (0x80000000#32, 0b10000#5) ∧
    ieeeNumerics.double.toUInt m 0x7FF0000000000000#64 = (0xFFFFFFFF#32, 0b10000#5) ∧ ieeeNumerics.double.toUInt m 0xFFF0000000000000#64 = (0x00000000#32, 0b10000#5))

/-- 45_fd_float.md R320, R321 of the intended FP_NUMERICS: a 32-bit integer converts to double exactly, with no flag, and back to itself, with no flag. -/
def Obligations.IntegersConvertToDoubleAndBack : Prop :=
  ∀ (m n : RoundingMode) (v : Word),
    (ieeeNumerics.double.ofInt m v).2 = 0#5 ∧
    ieeeNumerics.double.toInt n (ieeeNumerics.double.ofInt m v).1 = (v, 0#5) ∧
    (ieeeNumerics.double.ofUInt m v).2 = 0#5 ∧
    ieeeNumerics.double.toUInt n (ieeeNumerics.double.ofUInt m v).1 = (v, 0#5)

/-- 46_a_atomic.md R330 to R349, R354, R356: alignment whatever MISALIGNED_DATA, then R and W of every byte, all reported as store traps; then the old word to x[rd] and the new one to memory, also when equal; aq and rl have no effect. -/
def Obligations.AtomicReadModifyWrites : Prop :=
  ∀ (s : State) (rd rs1 rs2 : RegIdx) (aq rl : BitVec 1), s.params.extA = true →
  (Instr.inRow (.amoaddW rd rs1 rs2 aq rl) 0xF800707F#32 0x0000202F#32 ∧ s.modifies (.amoaddW rd rs1 rs2 aq rl) rd (s.readX rs1) (BitVec.ofNat 32 ((s.wordAt (s.readX rs1)).toNat + (s.readX rs2).toNat))) ∧
  (Instr.inRow (.amoswapW rd rs1 rs2 aq rl) 0xF800707F#32 0x0800202F#32 ∧ s.modifies (.amoswapW rd rs1 rs2 aq rl) rd (s.readX rs1) ((s.readX rs2))) ∧
  (Instr.inRow (.amoandW rd rs1 rs2 aq rl) 0xF800707F#32 0x6000202F#32 ∧ s.modifies (.amoandW rd rs1 rs2 aq rl) rd (s.readX rs1) ((s.wordAt (s.readX rs1)) &&& (s.readX rs2))) ∧
  (Instr.inRow (.amoorW rd rs1 rs2 aq rl) 0xF800707F#32 0x4000202F#32 ∧ s.modifies (.amoorW rd rs1 rs2 aq rl) rd (s.readX rs1) ((s.wordAt (s.readX rs1)) ||| (s.readX rs2))) ∧
  (Instr.inRow (.amoxorW rd rs1 rs2 aq rl) 0xF800707F#32 0x2000202F#32 ∧ s.modifies (.amoxorW rd rs1 rs2 aq rl) rd (s.readX rs1) ((s.wordAt (s.readX rs1)) ^^^ (s.readX rs2))) ∧
  (Instr.inRow (.amomaxW rd rs1 rs2 aq rl) 0xF800707F#32 0xA000202F#32 ∧ s.modifies (.amomaxW rd rs1 rs2 aq rl) rd (s.readX rs1) (if (s.wordAt (s.readX rs1)).toInt < (s.readX rs2).toInt then (s.readX rs2) else (s.wordAt (s.readX rs1)))) ∧
  (Instr.inRow (.amominW rd rs1 rs2 aq rl) 0xF800707F#32 0x8000202F#32 ∧ s.modifies (.amominW rd rs1 rs2 aq rl) rd (s.readX rs1) (if (s.readX rs2).toInt < (s.wordAt (s.readX rs1)).toInt then (s.readX rs2) else (s.wordAt (s.readX rs1)))) ∧
  (Instr.inRow (.amomaxuW rd rs1 rs2 aq rl) 0xF800707F#32 0xE000202F#32 ∧ s.modifies (.amomaxuW rd rs1 rs2 aq rl) rd (s.readX rs1) (if (s.wordAt (s.readX rs1)).toNat < (s.readX rs2).toNat then (s.readX rs2) else (s.wordAt (s.readX rs1)))) ∧
  (Instr.inRow (.amominuW rd rs1 rs2 aq rl) 0xF800707F#32 0xC000202F#32 ∧ s.modifies (.amominuW rd rs1 rs2 aq rl) rd (s.readX rs1) (if (s.readX rs2).toNat < (s.wordAt (s.readX rs1)).toNat then (s.readX rs2) else (s.wordAt (s.readX rs1))))

/-- 46_a_atomic.md R331, R350, R354: alignment always, then R; then the word to x[rd] and the reservation of its granule, also with rd = x0, over any earlier one; a trap leaves none. -/
def Obligations.LoadReserved : Prop :=
  ∀ (s : State) (rd rs1 : RegIdx) (aq rl : BitVec 1), s.params.extA = true →
  Instr.inRow (.lrW rd rs1 aq rl) 0xF9F0707F#32 0x1000202F#32 ∧
  ((s.readX rs1).toNat % 4 ≠ 0 → s.gives (.lrW rd rs1 aq rl) fun t => s.trapped t .loadAddressMisaligned (s.readX rs1)) ∧
  ((s.readX rs1).toNat % 4 = 0 → ¬ s.readable (s.readX rs1) 4 →
    s.gives (.lrW rd rs1 aq rl) fun t => s.trapped t .loadAccessFault (s.readX rs1)) ∧
  ((s.readX rs1).toNat % 4 = 0 → s.readable (s.readX rs1) 4 →
    s.gives (.lrW rd rs1 aq rl) fun t => s.setsX t rd (s.wordAt (s.readX rs1)) ∧ t.pc = s.pc + 4#32 ∧ s.keepsF t ∧ s.keepsCsrs t ∧
      s.keepsMem t ∧ t.stale = s.stale ∧ t.reservation = some (granuleOf s.params (s.readX rs1)) ∧ s.keepsModel t)

/-- 46_a_atomic.md R331, R352, R354, R355: alignment always, then W, before the reservation test; it succeeds exactly when the reservation is that of the address's granule; every sc leaves no reservation. That an intact reservation always succeeds is the default model of R355, which 93_implementation_defined.md U10 lets a model loosen: the model's choice (log 19). -/
def Obligations.StoreConditional : Prop :=
  ∀ (s : State) (rd rs1 rs2 : RegIdx) (aq rl : BitVec 1), s.params.extA = true →
  Instr.inRow (.scW rd rs1 rs2 aq rl) 0xF800707F#32 0x1800202F#32 ∧
  ((s.readX rs1).toNat % 4 ≠ 0 → s.gives (.scW rd rs1 rs2 aq rl) fun t => s.trapped t .storeAddressMisaligned (s.readX rs1)) ∧
  ((s.readX rs1).toNat % 4 = 0 → ¬ s.writable (s.readX rs1) 4 →
    s.gives (.scW rd rs1 rs2 aq rl) fun t => s.trapped t .storeAccessFault (s.readX rs1)) ∧
  ((s.readX rs1).toNat % 4 = 0 → s.writable (s.readX rs1) 4 → s.reservation = some (granuleOf s.params (s.readX rs1)) →
    s.gives (.scW rd rs1 rs2 aq rl) fun t => s.setsX t rd 0#32 ∧ t.pc = s.pc + 4#32 ∧ s.keepsF t ∧ s.keepsCsrs t ∧ t.reservation = none ∧
      State.stores { s with reservation := none } t (s.readX rs1) (littleEndian (s.readX rs2)) ∧ s.keepsModel t) ∧
  ((s.readX rs1).toNat % 4 = 0 → s.writable (s.readX rs1) 4 → s.reservation ≠ some (granuleOf s.params (s.readX rs1)) →
    s.gives (.scW rd rs1 rs2 aq rl) fun t => s.setsX t rd 1#32 ∧ t.pc = s.pc + 4#32 ∧ s.keepsF t ∧ s.keepsCsrs t ∧ s.keepsMem t ∧
      t.stale = s.stale ∧ t.reservation = none ∧ s.keepsModel t)

/-- 46_a_atomic.md R355: an sc after an lr to the same granule, the reservation intact, succeeds: no spurious failure (the default model of 93_implementation_defined.md U10; log 19). -/
def Obligations.LrThenScSucceeds : Prop :=
  ∀ (s t : State) (rd rs1 rd' rs1' rs2' : RegIdx) (aq rl aq' rl' : BitVec 1), s.params.extA = true →
    exec (.lrW rd rs1 aq rl) s = .next t → t.trap = none → t.readX rs1' = s.readX rs1 → t.writable (t.readX rs1') 4 →
    t.gives (.scW rd' rs1' rs2' aq' rl') fun u =>
      u.wordAt (s.readX rs1) = t.readX rs2' ∧ u.reservation = none ∧ (rd' ≠ 0#5 → u.readX rd' = 0#32)

/-- Every step from a state with the invariant gives a state with it: x0 stores 0 (10_state.md R22), pc is a multiple of 4 (R27), fcsr's bits 31 to 8 are 0 (R35), memory and stale are canonical, the reservation is a granule address (R41), an f slot's unused half is 0 (log 15). -/
def Obligations.StepKeepsTheInvariant : Prop :=
  ∀ s t : State, s.Inv → step s = .next t → t.Inv

/-- The state after reset has the invariant (10_state.md R44). -/
def Obligations.ResetHasTheInvariant : Prop :=
  State.reset.Inv

/-- The values 10_state.md R44 fixes: x0 is 0, pc is 0x00400000, fcsr is 0, no reservation, stale empty; and the defaults of 00_scope.md R7: no optional group, the empty CSR_SET, misaligned data faults, granule 4; the first launch condition on x2: a multiple of 16. The value of STACK_TOP itself is the model's (log 2). -/
def Obligations.ResetValues : Prop :=
  State.reset.readX 0#5 = 0#32 ∧ State.reset.pc = 0x00400000#32 ∧ State.reset.fcsr = 0#32 ∧
  State.reset.reservation = none ∧ State.reset.stale = [] ∧ State.reset.csrs = [] ∧
  State.reset.params.extM = false ∧ State.reset.params.extA = false ∧ State.reset.params.extF = false ∧
  State.reset.params.extD = false ∧ State.reset.params.misaligned = .fault ∧ State.reset.params.granule = 4 ∧
  (State.reset.readX 2#5).toNat % 16 = 0

/-- 60_exceptions.md R413, R416 refuse HARTS > 1, an XLEN other than 32 and a device region before any step; every other launch starts with the values of 10_state.md R44, the bytes of its data and of its program (little-endian) in memory; where the requirements of 70_reset_and_hazards.md R442 are met, the invariant holds and the first step runs the program's word at RESET_PC. The model's choices in it: HARTS = 0 is refused, and a launch that does not meet R442 has a start state too (log 13); a later block lies over an earlier one, and the program over the data (log 13); the unused upper half of an f slot is 0 (log 15); the values of the reset state that R44 leaves open, which the default launch has (logs 2 to 6). -/
def Obligations.LaunchRules : Prop :=
  (∀ l : Launch, l.harts ≠ 1 → ∃ r, launch l = .refused r) ∧
  (∀ l : Launch, l.xlen ≠ 32 → ∃ r, launch l = .refused r) ∧
  (∀ l : Launch, l.devices ≠ [] → ∃ r, launch l = .refused r) ∧
  (∀ l : Launch, l.harts = 1 → l.xlen = 32 → l.devices = [] →
    ∃ t, launch l = .next t ∧ t.pc = l.resetPc ∧ t.readX 0#5 = 0#32 ∧ t.readX 2#5 = l.stackTop ∧
      (∀ r, r ≠ 0#5 → r ≠ 2#5 → t.readX r = l.x.get r.toFin) ∧
      (∀ r, t.readD r = if l.params.extF = true ∧ l.params.extD = true then l.f.get r.toFin
        else BitVec.ofNat 64 ((l.f.get r.toFin).toNat % 2 ^ 32)) ∧
      t.fcsr = 0#32 ∧ t.csrs = l.csrs ∧ t.reservation = none ∧ t.stale = [] ∧ t.params = l.params ∧ t.trap = none ∧
      Memory.wf t.mem ∧
      (∀ (a : Word) (v : Byte),
        placedAt (l.image ++ l.program.map fun b => (b.1, b.2.flatMap littleEndian)) a v → t.byte a = v) ∧
      (l.meetsRequirements = true → t.Inv ∧
        ∃ w, l.hasWord l.resetPc w ∧ t.wordAt t.pc = w ∧ ∀ i, decodeWord w = .ok i → step t = exec i t)) ∧
  launch defaultLaunch = .next State.reset

/-- 60_exceptions.md R404, R405: a step that ends in a trap has changed nothing but the reservation, whichever instruction or fetch took it. -/
def Obligations.TrapsArePrecise : Prop :=
  ∀ (s t : State) (tr : Trap), s.trap = none → step s = .next t → t.trap = some tr → s.trapped t tr.cause tr.info

/-- 60_exceptions.md R404, R417: the outcome of a trap is terminal. The fault that says so is the model's form of it (log 1). -/
def Obligations.TrapsEndTheRun : Prop :=
  ∀ (s : State) (tr : Trap), s.trap = some tr → step s = .fault (.ended tr)

/-- 60_exceptions.md R416: every instruction has a next state (its effect or its trap); a step of a run that goes on stops only in the model fault StaleFetch, and only on a stale fetch; nothing is refused. -/
def Obligations.NothingElseStops : Prop :=
  (∀ (i : Instr) (s : State), ∃ t, exec i s = .next t) ∧
  (∀ s : State, s.trap = none → (∃ t, step s = .next t) ∨ (step s = .fault (.staleFetch s.pc s) ∧ s.fetchIsStale))

/-- 20_memory.md R50, R57, R61: an instruction that is no store, sc or amo leaves every byte as it reads; every byte that does change is stale afterwards (R62). -/
def Obligations.OnlyStoresChangeMemory : Prop :=
  (∀ (i : Instr) (s t : State), i.writesMemory = false → exec i s = .next t → s.keepsMem t) ∧
  (∀ (i : Instr) (s t : State) (a : Word), exec i s = .next t → t.byte a ≠ s.byte a → a.toNat ∈ t.stale)

/-- 10_state.md R42, 20_memory.md R62: only fence.i takes addresses out of stale; only an instruction that writes memory puts any in. -/
def Obligations.StaleOnlyGrowsBetweenFences : Prop :=
  ∀ (i : Instr) (s t : State), exec i s = .next t →
    ((∀ rd rs1 imm, i ≠ .fenceI rd rs1 imm) → ∀ a ∈ s.stale, a ∈ t.stale) ∧
    (i.writesMemory = false → ∀ a ∈ t.stale, a ∈ s.stale)

/-- 20_memory.md R62, 70_reset_and_hazards.md R450: a fetch of a word stored to by the instruction before is the model fault; after a fence.i no fetch is stale. -/
def Obligations.StoredCodeNeedsAFence : Prop :=
  (∀ (s t : State) (rs1 rs2 : RegIdx) (imm : BitVec 12), s.trap = none →
    exec (.sw rs1 rs2 imm) s = .next t → t.trap = none → t.fetchable t.pc 4 →
    s.readX rs1 + imm.signExtend 32 = s.pc + 4#32 → step t = .fault (.staleFetch t.pc t)) ∧
  (∀ (s t : State) (rd rs1 : RegIdx) (imm : BitVec 12), exec (.fenceI rd rs1 imm) s = .next t → ¬ t.fetchIsStale)

/-- 46_a_atomic.md R354: only lr.w sets a reservation, to the lr's address rounded down to the granule; every sc, and every trap, leaves none. -/
def Obligations.ReservationRules : Prop :=
  (∀ (i : Instr) (s t : State) (g : Word), exec i s = .next t → t.reservation = some g →
    s.reservation = some g ∨ ∃ rd rs1 aq rl, i = .lrW rd rs1 aq rl ∧ g = granuleOf s.params (s.readX rs1)) ∧
  (∀ (s t : State) (rd rs1 rs2 : RegIdx) (aq rl : BitVec 1), exec (.scW rd rs1 rs2 aq rl) s = .next t →
    t.reservation = none) ∧
  (∀ (i : Instr) (s t : State), s.trap = none → exec i s = .next t → t.trap ≠ none → t.reservation = none)

/-- 10_state.md R26: an instruction that does not write pc is followed by the one at pc + 4; a trap does not change pc; no instruction changes a parameter: they are the OPEN values of 00_scope.md R7, which the model carries in the state (log 6). -/
def Obligations.WhoWritesPc : Prop :=
  ∀ (i : Instr) (s t : State), s.trap = none → exec i s = .next t →
    t.params = s.params ∧ (t.trap ≠ none → t.pc = s.pc) ∧ (t.trap = none → i.writesPc = false → t.pc = s.pc + 4#32)

/-- 45_fd_float.md R311, R313, R316 and R244 to R261: the parameter that names the intended FP_NUMERICS gives that record (log 9), and on finite operands its add, sub, mul, div, sqrt and fma are the exact result rounded once in the mode. The sign of an exact zero and when OF, UF and NX are raised are those of IEEE 754-2008, which R316 names (log 24); between the two definitions of tininess UF is free (log 10). -/
def Obligations.IntendedArithmeticRoundsOnce : Prop :=
  (∀ p : Params, p.fpNumerics = .intended → numericsOf p = ieeeNumerics) ∧
  ArithmeticOf 8 23 32 ieeeNumerics.single ∧ ArithmeticOf 11 52 64 ieeeNumerics.double

/-- 45_fd_float.md R244, R246, R248, R250, R252 and section 4 of the intended FP_NUMERICS: infinities as operands, the invalid operations (NV with the canonical NaN, R315), division by zero (DZ), and the roots of the zeros. -/
def Obligations.IntendedArithmeticOnSpecials : Prop :=
  SpecialsOf 8 23 32 ieeeNumerics.single 0x7FC00000#32 (fun neg => if neg then 0xFF800000#32 else 0x7F800000#32)
    (fun neg => if neg then 0x80000000#32 else 0#32) ∧
  SpecialsOf 11 52 64 ieeeNumerics.double 0x7FF8000000000000#64
    (fun neg => if neg then 0xFFF0000000000000#64 else 0x7FF0000000000000#64)
    (fun neg => if neg then 0x8000000000000000#64 else 0#64)

/-- 45_fd_float.md R284 to R287, R313, R320, R321 of the intended FP_NUMERICS: the conversions between the precisions and from an integer are the exact number rounded once (to double always exact), and a finite number converts to an integer by rounding, with NX where inexact, and saturates with NV alone where it does not fit. -/
def Obligations.IntendedConversionsRoundOnce : Prop :=
  (∀ (m : RoundingMode) (a : DWord), isFinite 11 52 a.toNat →
    roundsNumber 8 23 m (number 11 52 a.toNat) a.msb (ieeeNumerics.narrow m a).1.toNat (ieeeNumerics.narrow m a).2) ∧
  (∀ (m : RoundingMode) (a : Word), isFinite 8 23 a.toNat →
    number 11 52 (ieeeNumerics.widen m a).1.toNat = number 8 23 a.toNat ∧ (ieeeNumerics.widen m a).1.msb = a.msb ∧
    isFinite 11 52 (ieeeNumerics.widen m a).1.toNat ∧ (ieeeNumerics.widen m a).2 = 0#5) ∧
  (∀ (m : RoundingMode), ieeeNumerics.narrow m 0x7FF0000000000000#64 = (0x7F800000#32, 0#5) ∧
    ieeeNumerics.narrow m 0xFFF0000000000000#64 = (0xFF800000#32, 0#5) ∧
    ieeeNumerics.widen m 0x7F800000#32 = (0x7FF0000000000000#64, 0#5) ∧
    ieeeNumerics.widen m 0xFF800000#32 = (0xFFF0000000000000#64, 0#5)) ∧
  (∀ (m : RoundingMode) (v : Word),
    roundsNumber 8 23 m (v.toInt : ℚ) false (ieeeNumerics.single.ofInt m v).1.toNat (ieeeNumerics.single.ofInt m v).2 ∧
    roundsNumber 8 23 m (v.toNat : ℚ) false (ieeeNumerics.single.ofUInt m v).1.toNat (ieeeNumerics.single.ofUInt m v).2 ∧
    number 11 52 (ieeeNumerics.double.ofInt m v).1.toNat = v.toInt ∧
    number 11 52 (ieeeNumerics.double.ofUInt m v).1.toNat = v.toNat) ∧
  (∀ (m : RoundingMode) (a : Word), isFinite 8 23 a.toNat →
    convertsToInteger (-2 ^ 31) (2 ^ 31 - 1) m (number 8 23 a.toNat) (ieeeNumerics.single.toInt m a) ∧
    convertsToInteger 0 (2 ^ 32 - 1) m (number 8 23 a.toNat) (ieeeNumerics.single.toUInt m a)) ∧
  (∀ (m : RoundingMode) (a : DWord), isFinite 11 52 a.toNat →
    convertsToInteger (-2 ^ 31) (2 ^ 31 - 1) m (number 11 52 a.toNat) (ieeeNumerics.double.toInt m a) ∧
    convertsToInteger 0 (2 ^ 32 - 1) m (number 11 52 a.toNat) (ieeeNumerics.double.toUInt m a))
end

