-- ==== Sys2Proof/Laws/State.lean ====
section
/-! SUPPORT. One lemma per field per update of State, so that no proof unfolds a record update. -/

namespace Sys2Proof.Machine

/-! ### `advance` -/

@[simp] theorem State.advance_x (s : State) : (s.advance).x = s.x := rfl
@[simp] theorem State.advance_pc (s : State) : (s.advance).pc = s.pc + 4#32 := rfl
@[simp] theorem State.advance_f (s : State) : (s.advance).f = s.f := rfl
@[simp] theorem State.advance_fcsr (s : State) : (s.advance).fcsr = s.fcsr := rfl
@[simp] theorem State.advance_csrs (s : State) : (s.advance).csrs = s.csrs := rfl
@[simp] theorem State.advance_mem (s : State) : (s.advance).mem = s.mem := rfl
@[simp] theorem State.advance_stale (s : State) : (s.advance).stale = s.stale := rfl
@[simp] theorem State.advance_reservation (s : State) : (s.advance).reservation = s.reservation := rfl
@[simp] theorem State.advance_params (s : State) : (s.advance).params = s.params := rfl
@[simp] theorem State.advance_draws (s : State) : (s.advance).draws = s.draws := rfl
@[simp] theorem State.advance_trap (s : State) : (s.advance).trap = s.trap := rfl

/-! ### `setPc` -/

@[simp] theorem State.setPc_x (s : State) (a : Word) : (s.setPc a).x = s.x := rfl
@[simp] theorem State.setPc_pc (s : State) (a : Word) : (s.setPc a).pc = a := rfl
@[simp] theorem State.setPc_f (s : State) (a : Word) : (s.setPc a).f = s.f := rfl
@[simp] theorem State.setPc_fcsr (s : State) (a : Word) : (s.setPc a).fcsr = s.fcsr := rfl
@[simp] theorem State.setPc_csrs (s : State) (a : Word) : (s.setPc a).csrs = s.csrs := rfl
@[simp] theorem State.setPc_mem (s : State) (a : Word) : (s.setPc a).mem = s.mem := rfl
@[simp] theorem State.setPc_stale (s : State) (a : Word) : (s.setPc a).stale = s.stale := rfl
@[simp] theorem State.setPc_reservation (s : State) (a : Word) : (s.setPc a).reservation = s.reservation := rfl
@[simp] theorem State.setPc_params (s : State) (a : Word) : (s.setPc a).params = s.params := rfl
@[simp] theorem State.setPc_draws (s : State) (a : Word) : (s.setPc a).draws = s.draws := rfl
@[simp] theorem State.setPc_trap (s : State) (a : Word) : (s.setPc a).trap = s.trap := rfl

/-! ### `writeX` -/

@[simp] theorem State.writeX_x (s : State) (r : RegIdx) (v : Word) : (s.writeX r v).x = if r = 0#5 then s.x else s.x.set r.toFin v := by unfold State.writeX; split <;> rfl
@[simp] theorem State.writeX_pc (s : State) (r : RegIdx) (v : Word) : (s.writeX r v).pc = s.pc := by unfold State.writeX; split <;> rfl
@[simp] theorem State.writeX_f (s : State) (r : RegIdx) (v : Word) : (s.writeX r v).f = s.f := by unfold State.writeX; split <;> rfl
@[simp] theorem State.writeX_fcsr (s : State) (r : RegIdx) (v : Word) : (s.writeX r v).fcsr = s.fcsr := by unfold State.writeX; split <;> rfl
@[simp] theorem State.writeX_csrs (s : State) (r : RegIdx) (v : Word) : (s.writeX r v).csrs = s.csrs := by unfold State.writeX; split <;> rfl
@[simp] theorem State.writeX_mem (s : State) (r : RegIdx) (v : Word) : (s.writeX r v).mem = s.mem := by unfold State.writeX; split <;> rfl
@[simp] theorem State.writeX_stale (s : State) (r : RegIdx) (v : Word) : (s.writeX r v).stale = s.stale := by unfold State.writeX; split <;> rfl
@[simp] theorem State.writeX_reservation (s : State) (r : RegIdx) (v : Word) : (s.writeX r v).reservation = s.reservation := by unfold State.writeX; split <;> rfl
@[simp] theorem State.writeX_params (s : State) (r : RegIdx) (v : Word) : (s.writeX r v).params = s.params := by unfold State.writeX; split <;> rfl
@[simp] theorem State.writeX_draws (s : State) (r : RegIdx) (v : Word) : (s.writeX r v).draws = s.draws := by unfold State.writeX; split <;> rfl
@[simp] theorem State.writeX_trap (s : State) (r : RegIdx) (v : Word) : (s.writeX r v).trap = s.trap := by unfold State.writeX; split <;> rfl

/-! ### `writeD` -/

@[simp] theorem State.writeD_x (s : State) (r : RegIdx) (v : DWord) : (s.writeD r v).x = s.x := rfl
@[simp] theorem State.writeD_pc (s : State) (r : RegIdx) (v : DWord) : (s.writeD r v).pc = s.pc := rfl
@[simp] theorem State.writeD_f (s : State) (r : RegIdx) (v : DWord) : (s.writeD r v).f = s.f.set r.toFin v := rfl
@[simp] theorem State.writeD_fcsr (s : State) (r : RegIdx) (v : DWord) : (s.writeD r v).fcsr = s.fcsr := rfl
@[simp] theorem State.writeD_csrs (s : State) (r : RegIdx) (v : DWord) : (s.writeD r v).csrs = s.csrs := rfl
@[simp] theorem State.writeD_mem (s : State) (r : RegIdx) (v : DWord) : (s.writeD r v).mem = s.mem := rfl
@[simp] theorem State.writeD_stale (s : State) (r : RegIdx) (v : DWord) : (s.writeD r v).stale = s.stale := rfl
@[simp] theorem State.writeD_reservation (s : State) (r : RegIdx) (v : DWord) : (s.writeD r v).reservation = s.reservation := rfl
@[simp] theorem State.writeD_params (s : State) (r : RegIdx) (v : DWord) : (s.writeD r v).params = s.params := rfl
@[simp] theorem State.writeD_draws (s : State) (r : RegIdx) (v : DWord) : (s.writeD r v).draws = s.draws := rfl
@[simp] theorem State.writeD_trap (s : State) (r : RegIdx) (v : DWord) : (s.writeD r v).trap = s.trap := rfl

/-! ### `writeS` -/

@[simp] theorem State.writeS_x (s : State) (r : RegIdx) (v : Word) : (s.writeS r v).x = s.x := rfl
@[simp] theorem State.writeS_pc (s : State) (r : RegIdx) (v : Word) : (s.writeS r v).pc = s.pc := rfl
@[simp] theorem State.writeS_f (s : State) (r : RegIdx) (v : Word) : (s.writeS r v).f = s.f.set r.toFin (boxS s.params v) := rfl
@[simp] theorem State.writeS_fcsr (s : State) (r : RegIdx) (v : Word) : (s.writeS r v).fcsr = s.fcsr := rfl
@[simp] theorem State.writeS_csrs (s : State) (r : RegIdx) (v : Word) : (s.writeS r v).csrs = s.csrs := rfl
@[simp] theorem State.writeS_mem (s : State) (r : RegIdx) (v : Word) : (s.writeS r v).mem = s.mem := rfl
@[simp] theorem State.writeS_stale (s : State) (r : RegIdx) (v : Word) : (s.writeS r v).stale = s.stale := rfl
@[simp] theorem State.writeS_reservation (s : State) (r : RegIdx) (v : Word) : (s.writeS r v).reservation = s.reservation := rfl
@[simp] theorem State.writeS_params (s : State) (r : RegIdx) (v : Word) : (s.writeS r v).params = s.params := rfl
@[simp] theorem State.writeS_draws (s : State) (r : RegIdx) (v : Word) : (s.writeS r v).draws = s.draws := rfl
@[simp] theorem State.writeS_trap (s : State) (r : RegIdx) (v : Word) : (s.writeS r v).trap = s.trap := rfl

/-! ### `writeFcsr` -/

@[simp] theorem State.writeFcsr_x (s : State) (m : BitVec 3) (fl : FpFlags) : (s.writeFcsr m fl).x = s.x := rfl
@[simp] theorem State.writeFcsr_pc (s : State) (m : BitVec 3) (fl : FpFlags) : (s.writeFcsr m fl).pc = s.pc := rfl
@[simp] theorem State.writeFcsr_f (s : State) (m : BitVec 3) (fl : FpFlags) : (s.writeFcsr m fl).f = s.f := rfl
@[simp] theorem State.writeFcsr_fcsr (s : State) (m : BitVec 3) (fl : FpFlags) : (s.writeFcsr m fl).fcsr = 0#24 ++ m ++ fl := rfl
@[simp] theorem State.writeFcsr_csrs (s : State) (m : BitVec 3) (fl : FpFlags) : (s.writeFcsr m fl).csrs = s.csrs := rfl
@[simp] theorem State.writeFcsr_mem (s : State) (m : BitVec 3) (fl : FpFlags) : (s.writeFcsr m fl).mem = s.mem := rfl
@[simp] theorem State.writeFcsr_stale (s : State) (m : BitVec 3) (fl : FpFlags) : (s.writeFcsr m fl).stale = s.stale := rfl
@[simp] theorem State.writeFcsr_reservation (s : State) (m : BitVec 3) (fl : FpFlags) : (s.writeFcsr m fl).reservation = s.reservation := rfl
@[simp] theorem State.writeFcsr_params (s : State) (m : BitVec 3) (fl : FpFlags) : (s.writeFcsr m fl).params = s.params := rfl
@[simp] theorem State.writeFcsr_draws (s : State) (m : BitVec 3) (fl : FpFlags) : (s.writeFcsr m fl).draws = s.draws := rfl
@[simp] theorem State.writeFcsr_trap (s : State) (m : BitVec 3) (fl : FpFlags) : (s.writeFcsr m fl).trap = s.trap := rfl

/-! ### `accrue` -/

@[simp] theorem State.accrue_x (s : State) (fl : FpFlags) : (s.accrue fl).x = s.x := rfl
@[simp] theorem State.accrue_pc (s : State) (fl : FpFlags) : (s.accrue fl).pc = s.pc := rfl
@[simp] theorem State.accrue_f (s : State) (fl : FpFlags) : (s.accrue fl).f = s.f := rfl
@[simp] theorem State.accrue_fcsr (s : State) (fl : FpFlags) : (s.accrue fl).fcsr = 0#24 ++ s.frm ++ (s.fflags ||| fl) := rfl
@[simp] theorem State.accrue_csrs (s : State) (fl : FpFlags) : (s.accrue fl).csrs = s.csrs := rfl
@[simp] theorem State.accrue_mem (s : State) (fl : FpFlags) : (s.accrue fl).mem = s.mem := rfl
@[simp] theorem State.accrue_stale (s : State) (fl : FpFlags) : (s.accrue fl).stale = s.stale := rfl
@[simp] theorem State.accrue_reservation (s : State) (fl : FpFlags) : (s.accrue fl).reservation = s.reservation := rfl
@[simp] theorem State.accrue_params (s : State) (fl : FpFlags) : (s.accrue fl).params = s.params := rfl
@[simp] theorem State.accrue_draws (s : State) (fl : FpFlags) : (s.accrue fl).draws = s.draws := rfl
@[simp] theorem State.accrue_trap (s : State) (fl : FpFlags) : (s.accrue fl).trap = s.trap := rfl

/-! ### `takeTrap` -/

@[simp] theorem State.takeTrap_x (s : State) (e : Cause) (info : Word) : (s.takeTrap e info).x = s.x := rfl
@[simp] theorem State.takeTrap_pc (s : State) (e : Cause) (info : Word) : (s.takeTrap e info).pc = s.pc := rfl
@[simp] theorem State.takeTrap_f (s : State) (e : Cause) (info : Word) : (s.takeTrap e info).f = s.f := rfl
@[simp] theorem State.takeTrap_fcsr (s : State) (e : Cause) (info : Word) : (s.takeTrap e info).fcsr = s.fcsr := rfl
@[simp] theorem State.takeTrap_csrs (s : State) (e : Cause) (info : Word) : (s.takeTrap e info).csrs = s.csrs := rfl
@[simp] theorem State.takeTrap_mem (s : State) (e : Cause) (info : Word) : (s.takeTrap e info).mem = s.mem := rfl
@[simp] theorem State.takeTrap_stale (s : State) (e : Cause) (info : Word) : (s.takeTrap e info).stale = s.stale := rfl
@[simp] theorem State.takeTrap_reservation (s : State) (e : Cause) (info : Word) : (s.takeTrap e info).reservation = none := rfl
@[simp] theorem State.takeTrap_params (s : State) (e : Cause) (info : Word) : (s.takeTrap e info).params = s.params := rfl
@[simp] theorem State.takeTrap_draws (s : State) (e : Cause) (info : Word) : (s.takeTrap e info).draws = s.draws := rfl
@[simp] theorem State.takeTrap_trap (s : State) (e : Cause) (info : Word) : (s.takeTrap e info).trap = some { cause := e, info := info } := rfl

/-! ### `storeByte` -/

@[simp] theorem State.storeByte_x (s : State) (a : Word) (b : Byte) : (s.storeByte a b).x = s.x := rfl
@[simp] theorem State.storeByte_pc (s : State) (a : Word) (b : Byte) : (s.storeByte a b).pc = s.pc := rfl
@[simp] theorem State.storeByte_f (s : State) (a : Word) (b : Byte) : (s.storeByte a b).f = s.f := rfl
@[simp] theorem State.storeByte_fcsr (s : State) (a : Word) (b : Byte) : (s.storeByte a b).fcsr = s.fcsr := rfl
@[simp] theorem State.storeByte_csrs (s : State) (a : Word) (b : Byte) : (s.storeByte a b).csrs = s.csrs := rfl
@[simp] theorem State.storeByte_mem (s : State) (a : Word) (b : Byte) : (s.storeByte a b).mem = s.mem.write a.toNat b := rfl
@[simp] theorem State.storeByte_stale (s : State) (a : Word) (b : Byte) : (s.storeByte a b).stale = staleInsert s.stale a.toNat := rfl
@[simp] theorem State.storeByte_reservation (s : State) (a : Word) (b : Byte) : (s.storeByte a b).reservation = if s.reservation = some (granuleBase s.params a) then none else s.reservation := rfl
@[simp] theorem State.storeByte_params (s : State) (a : Word) (b : Byte) : (s.storeByte a b).params = s.params := rfl
@[simp] theorem State.storeByte_draws (s : State) (a : Word) (b : Byte) : (s.storeByte a b).draws = s.draws := rfl
@[simp] theorem State.storeByte_trap (s : State) (a : Word) (b : Byte) : (s.storeByte a b).trap = s.trap := rfl

/-! ### `afterRead` -/

@[simp] theorem State.afterRead_x (s : State) (r : Csr) (b : Bool) : (s.afterRead r b).x = s.x := by unfold State.afterRead; split <;> simp_all
@[simp] theorem State.afterRead_pc (s : State) (r : Csr) (b : Bool) : (s.afterRead r b).pc = s.pc := by unfold State.afterRead; split <;> simp_all
@[simp] theorem State.afterRead_f (s : State) (r : Csr) (b : Bool) : (s.afterRead r b).f = s.f := by unfold State.afterRead; split <;> simp_all
@[simp] theorem State.afterRead_fcsr (s : State) (r : Csr) (b : Bool) : (s.afterRead r b).fcsr = s.fcsr := by unfold State.afterRead; split <;> simp_all
@[simp] theorem State.afterRead_csrs (s : State) (r : Csr) (b : Bool) : (s.afterRead r b).csrs = s.csrs := by unfold State.afterRead; split <;> simp_all
@[simp] theorem State.afterRead_mem (s : State) (r : Csr) (b : Bool) : (s.afterRead r b).mem = s.mem := by unfold State.afterRead; split <;> simp_all
@[simp] theorem State.afterRead_stale (s : State) (r : Csr) (b : Bool) : (s.afterRead r b).stale = s.stale := by unfold State.afterRead; split <;> simp_all
@[simp] theorem State.afterRead_reservation (s : State) (r : Csr) (b : Bool) : (s.afterRead r b).reservation = s.reservation := by unfold State.afterRead; split <;> simp_all
@[simp] theorem State.afterRead_params (s : State) (r : Csr) (b : Bool) : (s.afterRead r b).params = s.params := by unfold State.afterRead; split <;> simp_all
@[simp] theorem State.afterRead_draws (s : State) (r : Csr) (b : Bool) : (s.afterRead r b).draws = if r.volatile && b then s.draws + 1 else s.draws := by unfold State.afterRead; split <;> simp_all
@[simp] theorem State.afterRead_trap (s : State) (r : Csr) (b : Bool) : (s.afterRead r b).trap = s.trap := by unfold State.afterRead; split <;> simp_all

/-! ### `placeInstr` -/

@[simp] theorem State.placeInstr_x (s : State) (n w : Nat) : (s.placeInstr n w).x = s.x := rfl
@[simp] theorem State.placeInstr_pc (s : State) (n w : Nat) : (s.placeInstr n w).pc = s.pc := rfl
@[simp] theorem State.placeInstr_f (s : State) (n w : Nat) : (s.placeInstr n w).f = s.f := rfl
@[simp] theorem State.placeInstr_fcsr (s : State) (n w : Nat) : (s.placeInstr n w).fcsr = s.fcsr := rfl
@[simp] theorem State.placeInstr_csrs (s : State) (n w : Nat) : (s.placeInstr n w).csrs = s.csrs := rfl
@[simp] theorem State.placeInstr_mem (s : State) (n w : Nat) : (s.placeInstr n w).mem = placeBytes s.mem s.pc (tableBytes n w) := rfl
@[simp] theorem State.placeInstr_stale (s : State) (n w : Nat) : (s.placeInstr n w).stale = s.stale.filter fun a => !((span s.pc 4).any fun b => b.toNat == a) := rfl
@[simp] theorem State.placeInstr_reservation (s : State) (n w : Nat) : (s.placeInstr n w).reservation = s.reservation := rfl
@[simp] theorem State.placeInstr_params (s : State) (n w : Nat) : (s.placeInstr n w).params = { s.params with memMap := fetchableAt s s.pc } := rfl
@[simp] theorem State.placeInstr_draws (s : State) (n w : Nat) : (s.placeInstr n w).draws = s.draws := rfl
@[simp] theorem State.placeInstr_trap (s : State) (n w : Nat) : (s.placeInstr n w).trap = none := rfl

/-! ### `linkAndJump` -/

@[simp] theorem State.linkAndJump_x (s : State) (r : RegIdx) (a : Word) : (s.linkAndJump r a).x = if r = 0#5 then s.x else s.x.set r.toFin (s.pc + 4#32) := by simp [State.linkAndJump]
@[simp] theorem State.linkAndJump_pc (s : State) (r : RegIdx) (a : Word) : (s.linkAndJump r a).pc = a := by simp [State.linkAndJump]
@[simp] theorem State.linkAndJump_f (s : State) (r : RegIdx) (a : Word) : (s.linkAndJump r a).f = s.f := by simp [State.linkAndJump]
@[simp] theorem State.linkAndJump_fcsr (s : State) (r : RegIdx) (a : Word) : (s.linkAndJump r a).fcsr = s.fcsr := by simp [State.linkAndJump]
@[simp] theorem State.linkAndJump_csrs (s : State) (r : RegIdx) (a : Word) : (s.linkAndJump r a).csrs = s.csrs := by simp [State.linkAndJump]
@[simp] theorem State.linkAndJump_mem (s : State) (r : RegIdx) (a : Word) : (s.linkAndJump r a).mem = s.mem := by simp [State.linkAndJump]
@[simp] theorem State.linkAndJump_stale (s : State) (r : RegIdx) (a : Word) : (s.linkAndJump r a).stale = s.stale := by simp [State.linkAndJump]
@[simp] theorem State.linkAndJump_reservation (s : State) (r : RegIdx) (a : Word) : (s.linkAndJump r a).reservation = s.reservation := by simp [State.linkAndJump]
@[simp] theorem State.linkAndJump_params (s : State) (r : RegIdx) (a : Word) : (s.linkAndJump r a).params = s.params := by simp [State.linkAndJump]
@[simp] theorem State.linkAndJump_draws (s : State) (r : RegIdx) (a : Word) : (s.linkAndJump r a).draws = s.draws := by simp [State.linkAndJump]
@[simp] theorem State.linkAndJump_trap (s : State) (r : RegIdx) (a : Word) : (s.linkAndJump r a).trap = s.trap := by simp [State.linkAndJump]

/-! ### `store`: what a store leaves alone -/

@[simp] theorem State.store_x (bs : List Byte) : ∀ (s : State) (a : Word), (s.store a bs).x = s.x := by
  induction bs with
  | nil => intro s a; rfl
  | cons b rest ih => intro s a; simp [State.store, ih]

@[simp] theorem State.store_pc (bs : List Byte) : ∀ (s : State) (a : Word), (s.store a bs).pc = s.pc := by
  induction bs with
  | nil => intro s a; rfl
  | cons b rest ih => intro s a; simp [State.store, ih]

@[simp] theorem State.store_f (bs : List Byte) : ∀ (s : State) (a : Word), (s.store a bs).f = s.f := by
  induction bs with
  | nil => intro s a; rfl
  | cons b rest ih => intro s a; simp [State.store, ih]

@[simp] theorem State.store_fcsr (bs : List Byte) : ∀ (s : State) (a : Word), (s.store a bs).fcsr = s.fcsr := by
  induction bs with
  | nil => intro s a; rfl
  | cons b rest ih => intro s a; simp [State.store, ih]

@[simp] theorem State.store_csrs (bs : List Byte) : ∀ (s : State) (a : Word), (s.store a bs).csrs = s.csrs := by
  induction bs with
  | nil => intro s a; rfl
  | cons b rest ih => intro s a; simp [State.store, ih]

@[simp] theorem State.store_params (bs : List Byte) : ∀ (s : State) (a : Word), (s.store a bs).params = s.params := by
  induction bs with
  | nil => intro s a; rfl
  | cons b rest ih => intro s a; simp [State.store, ih]

@[simp] theorem State.store_draws (bs : List Byte) : ∀ (s : State) (a : Word), (s.store a bs).draws = s.draws := by
  induction bs with
  | nil => intro s a; rfl
  | cons b rest ih => intro s a; simp [State.store, ih]

@[simp] theorem State.store_trap (bs : List Byte) : ∀ (s : State) (a : Word), (s.store a bs).trap = s.trap := by
  induction bs with
  | nil => intro s a; rfl
  | cons b rest ih => intro s a; simp [State.store, ih]

/-! ### `setCsr`: what writing a CSR leaves alone -/

@[simp] theorem State.setCsr_x (s : State) (c : CsrIdx) (v : Word) : (s.setCsr c v).x = s.x := by
  unfold State.setCsr; split_ifs <;> rfl
@[simp] theorem State.setCsr_pc (s : State) (c : CsrIdx) (v : Word) : (s.setCsr c v).pc = s.pc := by
  unfold State.setCsr; split_ifs <;> rfl
@[simp] theorem State.setCsr_f (s : State) (c : CsrIdx) (v : Word) : (s.setCsr c v).f = s.f := by
  unfold State.setCsr; split_ifs <;> rfl
@[simp] theorem State.setCsr_mem (s : State) (c : CsrIdx) (v : Word) : (s.setCsr c v).mem = s.mem := by
  unfold State.setCsr; split_ifs <;> rfl
@[simp] theorem State.setCsr_stale (s : State) (c : CsrIdx) (v : Word) : (s.setCsr c v).stale = s.stale := by
  unfold State.setCsr; split_ifs <;> rfl
@[simp] theorem State.setCsr_reservation (s : State) (c : CsrIdx) (v : Word) : (s.setCsr c v).reservation = s.reservation := by
  unfold State.setCsr; split_ifs <;> rfl
@[simp] theorem State.setCsr_params (s : State) (c : CsrIdx) (v : Word) : (s.setCsr c v).params = s.params := by
  unfold State.setCsr; split_ifs <;> rfl
@[simp] theorem State.setCsr_draws (s : State) (c : CsrIdx) (v : Word) : (s.setCsr c v).draws = s.draws := by
  unfold State.setCsr; split_ifs <;> rfl
@[simp] theorem State.setCsr_trap (s : State) (c : CsrIdx) (v : Word) : (s.setCsr c v).trap = s.trap := by
  unfold State.setCsr; split_ifs <;> rfl

end Sys2Proof.Machine
end

