-- ==== Sys2Proof/Laws/Registers.lean ====
section
/-! SUPPORT. What a read of a register gives after a write (10_state.md R20, R22, R31), and what every other update leaves
of it. -/

namespace Sys2Proof.Machine

theorem vector_get_set {α : Type} (v : Vector α 32) (i j : RegIdx) (a : α) :
    (v.set i.toFin a).get j.toFin = if j = i then a else v.get j.toFin := by
  have h : ∀ (w : Vector α 32) (k : RegIdx), w.get k.toFin = w[k.toNat]'k.isLt := fun _ _ => rfl
  rw [h, h]
  by_cases e : j = i
  · subst e; simp
  · have : i.toNat ≠ j.toNat := fun x => e (BitVec.eq_of_toNat_eq x.symm)
    simp only [if_neg e]
    exact Vector.getElem_set_ne (i := i.toNat) (j := j.toNat) (hi := i.isLt) (hj := j.isLt) this

/-! ### x registers -/

/-- A register reads as x0 = 0, or as its slot (R22). -/
theorem State.readX_zero (s : State) : s.readX 0#5 = 0#32 := by simp [State.readX]

theorem State.readX_congr {s t : State} (h : t.x = s.x) (r : RegIdx) : t.readX r = s.readX r := by
  simp [State.readX, h]

/-- All that a write does to the x registers: one register changes, x0 never (R22). -/
theorem State.readX_writeX (s : State) (rd r : RegIdx) (v : Word) :
    (s.writeX rd v).readX r = if r = rd ∧ r ≠ 0#5 then v else s.readX r := by
  simp only [State.readX, State.writeX_x]
  by_cases h0 : r = 0#5
  · simp [h0]
  by_cases hd : rd = 0#5
  · have : ¬ r = rd := by rw [hd]; exact h0
    simp [h0, hd]
  · simp only [h0, hd, if_false, vector_get_set]
    by_cases e : r = rd <;> simp [e, hd]

@[simp] theorem State.readX_advance (s : State) (r : RegIdx) : s.advance.readX r = s.readX r := rfl
@[simp] theorem State.readX_setPc (s : State) (a : Word) (r : RegIdx) : (s.setPc a).readX r = s.readX r := rfl
@[simp] theorem State.readX_writeD (s : State) (d : RegIdx) (v : DWord) (r : RegIdx) :
    (s.writeD d v).readX r = s.readX r := rfl
@[simp] theorem State.readX_writeS (s : State) (d : RegIdx) (v : Word) (r : RegIdx) :
    (s.writeS d v).readX r = s.readX r := rfl
@[simp] theorem State.readX_accrue (s : State) (fl : FpFlags) (r : RegIdx) : (s.accrue fl).readX r = s.readX r := rfl
@[simp] theorem State.readX_takeTrap (s : State) (e : Cause) (i : Word) (r : RegIdx) :
    (s.takeTrap e i).readX r = s.readX r := rfl
@[simp] theorem State.readX_store (s : State) (a : Word) (bs : List Byte) (r : RegIdx) :
    (s.store a bs).readX r = s.readX r := State.readX_congr (by simp) r
@[simp] theorem State.readX_setCsr (s : State) (c : CsrIdx) (v : Word) (r : RegIdx) :
    (s.setCsr c v).readX r = s.readX r := State.readX_congr (by simp) r
@[simp] theorem State.readX_afterRead (s : State) (c : Csr) (b : Bool) (r : RegIdx) :
    (s.afterRead c b).readX r = s.readX r := State.readX_congr (by simp) r

/-! ### f registers -/

theorem State.readD_congr {s t : State} (h : t.f = s.f) (r : RegIdx) : t.readD r = s.readD r := by
  simp [State.readD, h]

/-- All that a write does to the f registers: one register changes (R31). -/
theorem State.readD_writeD (s : State) (d r : RegIdx) (v : DWord) :
    (s.writeD d v).readD r = if r = d then v else s.readD r := by
  simp only [State.readD, State.writeD_f, vector_get_set]

/-- The same for a boxed single (45_fd_float.md R312). -/
theorem State.readD_writeS (s : State) (d r : RegIdx) (v : Word) :
    (s.writeS d v).readD r = if r = d then boxS s.params v else s.readD r := by
  simp only [State.readD, State.writeS_f, vector_get_set]

@[simp] theorem State.readD_advance (s : State) (r : RegIdx) : s.advance.readD r = s.readD r := rfl
@[simp] theorem State.readD_setPc (s : State) (a : Word) (r : RegIdx) : (s.setPc a).readD r = s.readD r := rfl
@[simp] theorem State.readD_writeX (s : State) (d : RegIdx) (v : Word) (r : RegIdx) :
    (s.writeX d v).readD r = s.readD r := State.readD_congr (by simp) r
@[simp] theorem State.readD_accrue (s : State) (fl : FpFlags) (r : RegIdx) : (s.accrue fl).readD r = s.readD r := rfl
@[simp] theorem State.readD_takeTrap (s : State) (e : Cause) (i : Word) (r : RegIdx) :
    (s.takeTrap e i).readD r = s.readD r := rfl
@[simp] theorem State.readD_store (s : State) (a : Word) (bs : List Byte) (r : RegIdx) :
    (s.store a bs).readD r = s.readD r := State.readD_congr (by simp) r
@[simp] theorem State.readD_setCsr (s : State) (c : CsrIdx) (v : Word) (r : RegIdx) :
    (s.setCsr c v).readD r = s.readD r := State.readD_congr (by simp) r
@[simp] theorem State.readD_afterRead (s : State) (c : Csr) (b : Bool) (r : RegIdx) :
    (s.afterRead c b).readD r = s.readD r := State.readD_congr (by simp) r

theorem append_low {m n : Nat} (u : BitVec m) (v : BitVec n) : (u ++ v).setWidth n = v := by
  apply BitVec.eq_of_getLsbD_eq; intro i hi
  simp [BitVec.getLsbD_append, hi]

theorem append_high {m n : Nat} (u : BitVec m) (v : BitVec n) : (u ++ v).extractLsb' n m = u := by
  apply BitVec.eq_of_getLsbD_eq; intro i hi
  simp [BitVec.getLsbD_append, hi]

/-- The two halves of a 64-bit slot. -/
theorem slot_halves (u v : Word) : (u ++ v).setWidth 32 = v ∧ (u ++ v).extractLsb' 32 32 = u :=
  ⟨append_low u v, append_high u v⟩

/-- What the slot of a boxed single holds (R312; log 15). -/
theorem boxS_fields (p : Params) (v : Word) : (boxS p v).setWidth 32 = v ∧
    (boxS p v).extractLsb' 32 32 = if hasD p then 0xFFFFFFFF#32 else 0#32 := by
  unfold boxS
  split
  · exact slot_halves _ _
  · exact slot_halves _ _

/-- A boxed single unboxes to itself whatever FLEN is (R312). -/
theorem State.readS_writeS (s : State) (d : RegIdx) (v : Word) : (s.writeS d v).readS d = v := by
  have h : (s.writeS d v).readD d = boxS s.params v := by rw [State.readD_writeS]; simp
  simp only [State.readS, State.readLow, h, State.writeS_params, (boxS_fields s.params v).1, (boxS_fields s.params v).2]
  cases hd : hasD s.params <;> simp

/-! ### fcsr (10_state.md R35, 45_fd_float.md R314) -/

theorem fcsr_fields (m : BitVec 3) (fl : FpFlags) :
    ((0#24 ++ m ++ fl).extractLsb' 0 5 = fl) ∧ ((0#24 ++ m ++ fl).extractLsb' 5 3 = m) ∧
      ((0#24 ++ m ++ fl).extractLsb' 8 24 = 0#24) := by
  revert m fl; decide

@[simp] theorem State.fflags_writeFcsr (s : State) (m : BitVec 3) (fl : FpFlags) : (s.writeFcsr m fl).fflags = fl := by
  simp only [State.fflags, State.writeFcsr_fcsr]; exact (fcsr_fields m fl).1
@[simp] theorem State.frm_writeFcsr (s : State) (m : BitVec 3) (fl : FpFlags) : (s.writeFcsr m fl).frm = m := by
  simp only [State.frm, State.writeFcsr_fcsr]; exact (fcsr_fields m fl).2.1
/-- The flags accrue (R314). -/
@[simp] theorem State.fflags_accrue (s : State) (fl : FpFlags) : (s.accrue fl).fflags = s.fflags ||| fl := by
  unfold State.accrue; simp
@[simp] theorem State.frm_accrue (s : State) (fl : FpFlags) : (s.accrue fl).frm = s.frm := by
  unfold State.accrue; simp

end Sys2Proof.Machine
end

