-- ==== Sys2Proof/Laws/Memory.lean ====
section
/-! SUPPORT. Memory, the stale-code set and the reservation: reads after writes, the canonical forms kept, and all that a
store does (20_memory.md R50, R52, R62; 46_a_atomic.md R354). -/

namespace Sys2Proof.Machine

/-! ### Reading after writing one byte -/

theorem Memory.read_erase (m : Memory) (a b : Nat) :
    (Memory.erase m a).read b = if b = a then unwrittenByte else m.read b := by
  induction m with
  | nil => simp [Memory.erase, Memory.read]
  | cons c rest ih =>
    obtain ⟨k, v⟩ := c
    simp only [Memory.erase, List.filter_cons] at ih ⊢
    by_cases h : k = a
    · subst h
      by_cases e : b = k
      · simp_all
      · have : ¬ k = b := fun x => e x.symm
        simp_all [Memory.read]
    · simp only [bne_iff_ne, ne_eq, h, not_false_eq_true, if_true, Memory.read]
      by_cases e : k = b
      · simp [← e, h]
      · simp only [if_neg e]; exact ih

theorem Memory.read_insert (m : Memory) (a : Nat) (v : Byte) (b : Nat) (fresh : ∀ c ∈ m, c.1 ≠ a) :
    (Memory.insert m a v).read b = if b = a then v else m.read b := by
  induction m with
  | nil => simp [Memory.insert, Memory.read, eq_comm]
  | cons c rest ih =>
    obtain ⟨k, w⟩ := c
    have hk : k ≠ a := fresh (k, w) (by simp)
    have ih := ih fun c hc => fresh c (by simp [hc])
    simp only [Memory.insert]
    split
    · simp only [Memory.read, eq_comm]
    · simp only [Memory.read, ih]
      by_cases e : k = b
      · simp [← e, hk]
      · simp [e]

theorem Memory.erase_fresh (m : Memory) (a : Nat) : ∀ c ∈ Memory.erase m a, c.1 ≠ a := by
  intro c hc; simpa [Memory.erase] using (List.mem_filter.mp hc).2

/-- All that writing one byte does to the reads (R50). -/
theorem Memory.read_write (m : Memory) (a : Nat) (v : Byte) (b : Nat) :
    (m.write a v).read b = if b = a then v else m.read b := by
  unfold Memory.write
  split
  · next h => rw [Memory.read_erase, h]
  · rw [Memory.read_insert _ _ _ _ (Memory.erase_fresh m a), Memory.read_erase]; split <;> rfl

/-! ### The canonical form -/

theorem Memory.mem_insert (m : Memory) (a : Nat) (v : Byte) (c : Host.Cell) :
    c ∈ Memory.insert m a v ↔ c = (a, v) ∨ c ∈ m := by
  induction m with
  | nil => simp [Memory.insert]
  | cons d rest ih =>
    obtain ⟨k, w⟩ := d
    simp only [Memory.insert]
    split
    · simp
    · simp only [List.mem_cons, ih]; tauto

theorem Memory.wf_erase {m : Memory} (h : Memory.wf m) (a : Nat) : Memory.wf (Memory.erase m a) :=
  ⟨h.1.filter _, fun c hc => h.2 c (List.mem_filter.mp hc).1⟩

theorem Memory.wf_insert {m : Memory} (h : Memory.wf m) {a : Nat} {v : Byte} (ha : a < 2 ^ 32) (hv : v ≠ unwrittenByte)
    (fresh : ∀ c ∈ m, c.1 ≠ a) : Memory.wf (Memory.insert m a v) := by
  induction m with
  | nil => exact ⟨by simp [Memory.insert], by simpa [Memory.insert, hv] using ha⟩
  | cons d rest ih =>
    obtain ⟨k, w⟩ := d
    obtain ⟨h1, h2⟩ := h
    have hr : Memory.wf rest := ⟨(List.pairwise_cons.mp h1).2, fun c hc => h2 c (by simp [hc])⟩
    have below := (List.pairwise_cons.mp h1).1
    have ih := ih hr fun c hc => fresh c (by simp [hc])
    have hk : k ≠ a := fresh (k, w) (by simp)
    refine ⟨?_, fun c hc => ?_⟩
    · simp only [Memory.insert]
      split
      · next hlt =>
        refine List.pairwise_cons.mpr ⟨fun c hc => ?_, h1⟩
        rcases List.mem_cons.mp hc with rfl | hc
        · exact hlt
        · exact Nat.lt_trans hlt (below c hc)
      · refine List.pairwise_cons.mpr ⟨fun c hc => ?_, ih.1⟩
        rcases (Memory.mem_insert _ _ _ _).mp hc with rfl | hc
        · simp only; omega
        · exact below c hc
    · rcases (Memory.mem_insert _ _ _ _).mp hc with rfl | hc
      · exact ⟨ha, hv⟩
      · exact h2 c hc

/-- Writing a byte of the address space keeps the canonical form. -/
theorem Memory.wf_write {m : Memory} (h : Memory.wf m) {a : Nat} (ha : a < 2 ^ 32) (v : Byte) :
    Memory.wf (m.write a v) := by
  unfold Memory.write
  split
  · exact Memory.wf_erase h a
  · next hv => exact Memory.wf_insert (Memory.wf_erase h a) ha hv (Memory.erase_fresh m a)

theorem wf_placeBytes (bs : List Byte) : ∀ {m : Memory}, Memory.wf m → ∀ a : Word, Memory.wf (placeBytes m a bs) := by
  induction bs with
  | nil => intro m h a; exact h
  | cons b rest ih => intro m h a; exact ih (Memory.wf_write h a.isLt b) (a + 1#32)

theorem wf_placeImage (image : List (Word × List Byte)) : ∀ {m : Memory}, Memory.wf m → Memory.wf (placeImage m image) := by
  induction image with
  | nil => intro m h; exact h
  | cons d rest ih => intro m h; obtain ⟨a, bs⟩ := d; exact ih (wf_placeBytes bs h a)

theorem reset_mem_wf : Memory.wf State.reset.mem := ⟨List.Pairwise.nil, fun _ h => absurd h List.not_mem_nil⟩

/-- An address below every listed one reads as unwritten. -/
theorem Memory.read_below (m : Memory) (a : Nat) (h : ∀ c ∈ m, a < c.1) : m.read a = unwrittenByte := by
  induction m with
  | nil => rfl
  | cons d rest ih =>
    obtain ⟨k, v⟩ := d
    have : a < k := h (k, v) (by simp)
    simp only [Memory.read]
    rw [if_neg (by omega)]
    exact ih fun c hc => h c (by simp [hc])

/-! ### The stale-code set -/

theorem mem_staleInsert (l : List Nat) (a c : Nat) : c ∈ staleInsert l a ↔ c = a ∨ c ∈ l := by
  induction l with
  | nil => simp [staleInsert]
  | cons k rest ih =>
    simp only [staleInsert]
    split
    · simp
    · split
      · next h => subst h; simp
      · simp only [List.mem_cons, ih]; tauto

theorem staleWf_insert {l : List Nat} (h : staleWf l) {a : Nat} (ha : a < 2 ^ 32) : staleWf (staleInsert l a) := by
  induction l with
  | nil => exact ⟨by simp [staleInsert], by simpa [staleInsert] using ha⟩
  | cons k rest ih =>
    obtain ⟨h1, h2⟩ := h
    have below := (List.pairwise_cons.mp h1).1
    have ih := ih ⟨(List.pairwise_cons.mp h1).2, fun c hc => h2 c (by simp [hc])⟩
    refine ⟨?_, fun c hc => ?_⟩
    · simp only [staleInsert]
      split
      · next hlt =>
        refine List.pairwise_cons.mpr ⟨fun c hc => ?_, h1⟩
        rcases List.mem_cons.mp hc with rfl | hc
        · exact hlt
        · exact Nat.lt_trans hlt (below c hc)
      · split
        · exact h1
        · refine List.pairwise_cons.mpr ⟨fun c hc => ?_, ih.1⟩
          rcases (mem_staleInsert _ _ _).mp hc with rfl | hc
          · omega
          · exact below c hc
    · rcases (mem_staleInsert _ _ _).mp hc with rfl | hc
      · exact ha
      · exact h2 c hc

/-! ### All that a store does -/

theorem State.byte_congr {s t : State} (h : t.mem = s.mem) (a : Word) : t.byte a = s.byte a := by
  simp [State.byte, h]

@[simp] theorem State.byte_advance (s : State) (b : Word) : s.advance.byte b = s.byte b := rfl
@[simp] theorem State.byte_setPc (s : State) (a b : Word) : (s.setPc a).byte b = s.byte b := rfl
@[simp] theorem State.byte_writeX (s : State) (r : RegIdx) (v b : Word) : (s.writeX r v).byte b = s.byte b :=
  State.byte_congr (by simp) b
@[simp] theorem State.byte_writeD (s : State) (r : RegIdx) (v : DWord) (b : Word) : (s.writeD r v).byte b = s.byte b := rfl
@[simp] theorem State.byte_writeS (s : State) (r : RegIdx) (v b : Word) : (s.writeS r v).byte b = s.byte b := rfl
@[simp] theorem State.byte_accrue (s : State) (fl : FpFlags) (b : Word) : (s.accrue fl).byte b = s.byte b := rfl
@[simp] theorem State.byte_takeTrap (s : State) (e : Cause) (i b : Word) : (s.takeTrap e i).byte b = s.byte b := rfl
@[simp] theorem State.byte_setCsr (s : State) (c : CsrIdx) (v b : Word) : (s.setCsr c v).byte b = s.byte b :=
  State.byte_congr (by simp) b
@[simp] theorem State.byte_afterRead (s : State) (c : Csr) (r : Bool) (b : Word) : (s.afterRead c r).byte b = s.byte b :=
  State.byte_congr (by simp) b

theorem State.byte_storeByte (s : State) (a b : Word) (v : Byte) :
    (s.storeByte a v).byte b = if b = a then v else s.byte b := by
  simp only [State.byte, State.storeByte_mem, Memory.read_write]
  by_cases h : b = a
  · simp [h]
  · have : b.toNat ≠ a.toNat := fun x => h (BitVec.eq_of_toNat_eq x)
    simp [h, this]

/-- The bytes after a store: the stored ones from `a` up, every other as before (R52). -/
theorem State.byte_store (bs : List Byte) : ∀ (s : State) (a b : Word), bs.length ≤ 2 ^ 32 →
    (s.store a bs).byte b = bs[(b - a).toNat]?.getD (s.byte b) := by
  induction bs with
  | nil => intro s a b _; simp [State.store]
  | cons v rest ih =>
    intro s a b hl
    simp only [List.length_cons] at hl
    simp only [State.store]
    rw [ih _ _ _ (by omega), State.byte_storeByte]
    by_cases h : b = a
    · subst h
      have e : (b - (b + 1#32)).toNat = 2 ^ 32 - 1 := by
        have : b - (b + 1#32) = 0xFFFFFFFF#32 := by bv_omega
        rw [this]; rfl
      have z : (b - b).toNat = 0 := by simp
      rw [e, z, List.getElem?_eq_none (by omega)]
      simp
    · have e : (b - a).toNat = (b - (a + 1#32)).toNat + 1 := by bv_omega
      rw [e, if_neg h]
      simp

/-- What joins the stale-code set (R62). -/
theorem State.mem_stale_store (bs : List Byte) : ∀ (s : State) (a : Word) (c : Nat),
    c ∈ (s.store a bs).stale ↔ c ∈ s.stale ∨ ∃ k < bs.length, c = (a + BitVec.ofNat 32 k).toNat := by
  induction bs with
  | nil => intro s a c; simp [State.store]
  | cons v rest ih =>
    intro s a c
    simp only [State.store, ih, State.storeByte_stale, mem_staleInsert, List.length_cons]
    have shift : ∀ k, a + 1#32 + BitVec.ofNat 32 k = a + BitVec.ofNat 32 (k + 1) := by
      intro k
      rw [BitVec.add_assoc]
      congr 1
      apply BitVec.eq_of_toNat_eq
      simp [BitVec.toNat_add, Nat.add_comm]
    constructor
    · rintro ((rfl | h) | ⟨k, hk, rfl⟩)
      · exact .inr ⟨0, by omega, by simp⟩
      · exact .inl h
      · exact .inr ⟨k + 1, by omega, by rw [shift]⟩
    · rintro (h | ⟨k, hk, rfl⟩)
      · exact .inl (.inr h)
      · cases k with
        | zero => exact .inl (.inl (by simp))
        | succ k => exact .inr ⟨k, by omega, by rw [shift]⟩

/-- What becomes of the reservation (R354). -/
theorem State.reservation_store (bs : List Byte) : ∀ (s : State) (a : Word),
    (s.store a bs).reservation =
      if ∃ k < bs.length, s.reservation = some (granuleBase s.params (a + BitVec.ofNat 32 k)) then none
      else s.reservation := by
  induction bs with
  | nil => intro s a; simp [State.store]
  | cons v rest ih =>
    intro s a
    have shift : ∀ k, a + 1#32 + BitVec.ofNat 32 k = a + BitVec.ofNat 32 (k + 1) := by
      intro k
      rw [BitVec.add_assoc]
      congr 1
      apply BitVec.eq_of_toNat_eq
      simp [BitVec.toNat_add, Nat.add_comm]
    simp only [State.store, ih, State.storeByte_reservation, State.storeByte_params, List.length_cons, shift]
    by_cases h0 : s.reservation = some (granuleBase s.params a)
    · have : ∃ k < rest.length + 1, s.reservation = some (granuleBase s.params (a + BitVec.ofNat 32 k)) :=
        ⟨0, by omega, by simpa using h0⟩
      rw [if_pos this, if_pos h0]
      split <;> rfl
    · simp only [if_neg h0]
      have : (∃ k < rest.length, s.reservation = some (granuleBase s.params (a + BitVec.ofNat 32 (k + 1)))) ↔
          ∃ k < rest.length + 1, s.reservation = some (granuleBase s.params (a + BitVec.ofNat 32 k)) := by
        constructor
        · rintro ⟨k, hk, e⟩; exact ⟨k + 1, by omega, e⟩
        · rintro ⟨k, hk, e⟩
          cases k with
          | zero => exact absurd (by simpa using e) h0
          | succ k => exact ⟨k, by omega, e⟩
      simp only [this]

theorem State.store_keeps_wf (bs : List Byte) : ∀ (s : State) (a : Word), Memory.wf s.mem → staleWf s.stale →
    Memory.wf (s.store a bs).mem ∧ staleWf (s.store a bs).stale := by
  induction bs with
  | nil => intro s a h g; exact ⟨h, g⟩
  | cons v rest ih =>
    intro s a h g
    exact ih _ _ (Memory.wf_write h a.isLt v) (staleWf_insert g a.isLt)

end Sys2Proof.Machine
end

