-- ==== Sys2Proof/Laws/Ops.lean ====
section
/-! SUPPORT. For each shared operation one lemma that says all it can do, in the terms of Sys2Proof/Safety.lean; the meanings
of single instructions are then read off without unfolding the operations. -/

namespace Sys2Proof.Machine

/-! ### What an answer is -/

/-- The answer `r` is a next state of which `post` holds. -/
def Answers (r : Result) (post : State → Prop) : Prop := ∃ t, r = .next t ∧ post t

theorem Answers.next {t : State} {post : State → Prop} (h : post t) : Answers (.next t) post := ⟨t, rfl, h⟩

/-- To say what an instruction does is to say what its meaning answers. -/
theorem State.gives_of {s : State} {i : Instr} {post : State → Prop} {r : Result} (e : exec i s = r)
    (h : Answers r post) : s.gives i post := by
  obtain ⟨t, rfl, p⟩ := h; exact ⟨t, e, p⟩

/-! ### Traps (60_exceptions.md R404) -/

theorem State.trapped_takeTrap (s : State) (e : Cause) (info : Word) : s.trapped (s.takeTrap e info) e info :=
  ⟨fun _ => rfl, rfl, fun _ => rfl, ⟨rfl, rfl⟩, fun _ => rfl, rfl, rfl, rfl, rfl, rfl⟩

theorem State.raise_answers (s : State) (e : Cause) (info : Word) :
    Answers (s.raise e info) fun t => s.trapped t e info := .next (s.trapped_takeTrap e info)

theorem State.illegal_answers (s : State) (i : Instr) :
    Answers (s.illegal i) fun t => s.trapped t .illegalInstruction (encode i) := s.raise_answers _ _

/-! ### Register results -/

theorem State.onlyX_writeX (s : State) (rd : RegIdx) (v : Word) : s.onlyX (s.writeX rd v).advance rd v :=
  ⟨fun r => by rw [State.readX_advance, State.readX_writeX], by simp, fun r => by simp, by simp [State.keepsCsrs],
    fun a => by simp, by simp [State.keepsHidden], by simp [State.keepsModel]⟩

theorem State.finishX_answers (s : State) (rd : RegIdx) (v : Word) :
    Answers (s.finishX rd v) fun t => s.onlyX t rd v := .next (s.onlyX_writeX rd v)

/-- What `fcsr` reads after flags have been raised (45_fd_float.md R314). -/
theorem State.readFcsr_accrue (s : State) (fl : FpFlags) : (s.accrue fl).readFcsr = s.readFcsr ||| fl.setWidth 32 := by
  have key : ∀ (w : Word) (fl : FpFlags),
      (0#24 ++ w.extractLsb' 5 3 ++ (w.extractLsb' 0 5 ||| fl)) &&& 0x000000FF#32 =
        (w &&& 0x000000FF#32) ||| fl.setWidth 32 := by
    intro w fl
    apply BitVec.eq_of_getLsbD_eq
    intro i hi
    have m : (0x000000FF#32).getLsbD i = decide (i < 8) := by
      have : ∀ i : Fin 32, (0x000000FF#32).getLsbD i = decide (i.val < 8) := by decide
      exact this ⟨i, hi⟩
    have z : (0#24 ++ w.extractLsb' 5 3 ++ (w.extractLsb' 0 5 ||| fl) : BitVec (24 + 3 + 5)).getLsbD i =
        if i < 5 then (w.getLsbD i || fl.getLsbD i) else if i < 8 then w.getLsbD i else false := by
      rw [BitVec.getLsbD_append, BitVec.getLsbD_append]
      by_cases h5 : i < 5
      · simp [h5]
      · by_cases h8 : i < 8
        · have : i - 5 < 3 := by omega
          have e : 5 + (i - 5) = i := by omega
          simp [h5, h8, this, e]
        · have : ¬ i - 5 < 3 := by omega
          simp [h5, h8, this]
    rw [BitVec.getLsbD_and, BitVec.getLsbD_or, BitVec.getLsbD_and, BitVec.getLsbD_setWidth, m]
    refine (congrArg (· && decide (i < 8)) z).trans ?_
    by_cases h5 : i < 5
    · have : i < 8 := by omega
      simp [h5, this, hi]
    · by_cases h8 : i < 8
      · have : fl.getLsbD i = false := BitVec.getLsbD_of_ge _ _ (by omega)
        simp [h5, h8, this]
      · have : fl.getLsbD i = false := BitVec.getLsbD_of_ge _ _ (by omega)
        simp [h8, this]
  exact key s.fcsr fl

theorem State.raisesFlags_accrue (s : State) (fl : FpFlags) {u : State} (h : u.fcsr = s.fcsr) (g : u.csrs = s.csrs) :
    s.raisesFlags (u.accrue fl).advance fl := by
  refine ⟨?_, by simp [g]⟩
  have e : ∀ t : State, t.fcsr = s.fcsr → (t.accrue fl).readFcsr = s.readFcsr ||| fl.setWidth 32 := by
    intro t ht
    have r : t.readFcsr = s.readFcsr := by simp [State.readFcsr, ht]
    rw [State.readFcsr_accrue, r]
  exact e u h

theorem State.finishD_answers (s : State) (rd : RegIdx) (r : DWord × FpFlags) :
    Answers (s.finishD rd r) fun t => s.onlyF t rd r.1 r.2 :=
  .next ⟨fun _ => by simp, by simp, fun x => by simp [State.readD_writeD], s.raisesFlags_accrue _ (by simp) (by simp),
    fun a => by simp, by simp [State.keepsHidden], by simp [State.keepsModel]⟩

theorem State.finishS_answers (s : State) (rd : RegIdx) (r : Word × FpFlags) :
    Answers (s.finishS rd r) fun t => s.onlyF t rd (boxS s.params r.1) r.2 := s.finishD_answers rd (boxS s.params r.1, r.2)

theorem State.finishFlagsX_answers (s : State) (rd : RegIdx) (r : Word × FpFlags) :
    Answers (s.finishFlagsX rd r) fun t => s.onlyFlagsX t rd r.1 r.2 :=
  .next ⟨fun x => by rw [State.readX_advance, State.readX_accrue, State.readX_writeX], by simp, fun x => by simp,
    s.raisesFlags_accrue _ (by simp) (by simp), fun a => by simp, by simp [State.keepsHidden], by simp [State.keepsModel]⟩

theorem State.onlyFMove_writeD (s : State) (rd : RegIdx) (v : DWord) : s.onlyFMove (s.writeD rd v).advance rd v :=
  ⟨fun _ => by simp, by simp, fun x => by simp [State.readD_writeD], by simp [State.keepsCsrs], fun a => by simp,
    by simp [State.keepsHidden], by simp [State.keepsModel]⟩

theorem State.onlyFMove_writeS (s : State) (rd : RegIdx) (v : Word) :
    s.onlyFMove (s.writeS rd v).advance rd (boxS s.params v) := s.onlyFMove_writeD rd (boxS s.params v)

/-- A boxed single in the terms of R312: all ones above when FLEN is 64. -/
theorem boxS_eq (p : Params) (v : Word) (h : p.extF = true) :
    boxS p v = (if p.extD then 0xFFFFFFFF#32 else 0#32) ++ v := by
  unfold boxS hasD; rw [h]; cases p.extD <;> rfl

/-! ### Admission and rounding modes (30_encoding.md R104, 45_fd_float.md R313) -/

theorem State.whenAdmitted_true {s : State} {b : Bool} {i : Instr} {k : Result} (h : b = true) :
    s.whenAdmitted b i k = k := by simp [State.whenAdmitted, h]

theorem State.whenAdmitted_false {s : State} {b : Bool} {i : Instr} {k : Result} (h : b = false) :
    s.whenAdmitted b i k = s.illegal i := by simp [State.whenAdmitted, h]

theorem modeOf_eq (v : BitVec 3) (m : RoundingMode) : modeOf v = some m ↔ v = modeNumber m := by
  cases m <;> revert v <;> decide

theorem State.effectiveMode_eq (s : State) (rm : BitVec 3) (m : RoundingMode) :
    s.effectiveMode rm = some m ↔ s.roundsIn rm m := by
  unfold State.effectiveMode State.roundsIn
  have h7 : modeNumber m ≠ 0b111#3 := by cases m <;> decide
  split
  · next h => rw [modeOf_eq]; subst h; simp [h7.symm]
  · next h => rw [modeOf_eq]; simp [h]

theorem State.effectiveMode_none (s : State) (rm : BitVec 3) : s.effectiveMode rm = none ↔ s.rmReserved rm := by
  unfold State.effectiveMode State.rmReserved
  generalize s.frm = f
  revert rm f; decide

theorem State.rounding_mode {s : State} {b : Bool} {i : Instr} {rm : BitVec 3} {k : RoundingMode → Result}
    {m : RoundingMode} (h : b = true) (hm : s.roundsIn rm m) : s.rounding b i rm k = k m := by
  simp [State.rounding, State.whenAdmitted, h, (s.effectiveMode_eq rm m).mpr hm]

theorem State.rounding_reserved {s : State} {b : Bool} {i : Instr} {rm : BitVec 3} {k : RoundingMode → Result}
    (hm : s.rmReserved rm) : s.rounding b i rm k = s.illegal i := by
  simp [State.rounding, State.whenAdmitted, (s.effectiveMode_none rm).mpr hm]

/-! ### The checks of an access (20_memory.md R55, R58) -/

theorem all_span (p : Word → Bool) (a : Word) (n : Nat) :
    (span a n).all p = true ↔ ∀ k < n, p (a + BitVec.ofNat 32 k) = true := by
  simp [span]

theorem State.canRead_eq (s : State) (a : Word) (n : Nat) : s.canRead a n = true ↔ s.readable a n := by
  simp only [State.canRead, all_span, mayRead, List.any_eq_true, Bool.and_eq_true, regionHas, decide_eq_true_eq]

theorem State.canWrite_eq (s : State) (a : Word) (n : Nat) : s.canWrite a n = true ↔ s.writable a n := by
  simp only [State.canWrite, all_span, mayWrite, List.any_eq_true, Bool.and_eq_true, regionHas, decide_eq_true_eq]

theorem State.canFetch_eq (s : State) (a : Word) (n : Nat) : s.canFetch a n = true ↔ s.fetchable a n := by
  simp only [State.canFetch, all_span, mayFetch, List.any_eq_true, Bool.and_eq_true, regionHas, decide_eq_true_eq]

theorem State.misalignedFaults_eq (s : State) (a : Word) (n : Nat) :
    s.misalignedFaults a n = true ↔ ¬ s.alignmentPasses a n := by
  unfold State.misalignedFaults aligned State.alignmentPasses
  cases s.params.misaligned <;> simp

/-- What a load's checks answer, in each of the three cases. -/
theorem State.loadCheck_cases (s : State) (a : Word) (n : Nat) :
    (¬ s.alignmentPasses a n → s.loadCheck a n = some .loadAddressMisaligned) ∧
    (s.alignmentPasses a n → ¬ s.readable a n → s.loadCheck a n = some .loadAccessFault) ∧
    (s.alignmentPasses a n → s.readable a n → s.loadCheck a n = none) := by
  unfold State.loadCheck
  refine ⟨fun h => ?_, fun h g => ?_, fun h g => ?_⟩
  · rw [if_pos ((s.misalignedFaults_eq a n).mpr h)]
  · rw [if_neg (mt (s.misalignedFaults_eq a n).mp (not_not.mpr h)), if_neg (mt (s.canRead_eq a n).mp g)]
  · rw [if_neg (mt (s.misalignedFaults_eq a n).mp (not_not.mpr h)), if_pos ((s.canRead_eq a n).mpr g)]

/-- What a store's checks answer, in each of the three cases. -/
theorem State.storeCheck_cases (s : State) (a : Word) (n : Nat) :
    (¬ s.alignmentPasses a n → s.storeCheck a n = some .storeAddressMisaligned) ∧
    (s.alignmentPasses a n → ¬ s.writable a n → s.storeCheck a n = some .storeAccessFault) ∧
    (s.alignmentPasses a n → s.writable a n → s.storeCheck a n = none) := by
  unfold State.storeCheck
  refine ⟨fun h => ?_, fun h g => ?_, fun h g => ?_⟩
  · rw [if_pos ((s.misalignedFaults_eq a n).mpr h)]
  · rw [if_neg (mt (s.misalignedFaults_eq a n).mp (not_not.mpr h)), if_neg (mt (s.canWrite_eq a n).mp g)]
  · rw [if_neg (mt (s.misalignedFaults_eq a n).mp (not_not.mpr h)), if_pos ((s.canWrite_eq a n).mpr g)]

theorem aligned4_eq (a : Word) : aligned a 4 = true ↔ a.toNat % 4 = 0 := by simp [aligned]

/-- What the checks of lr, sc and the amo instructions answer (46_a_atomic.md R330, R331, R350, R352). -/
theorem State.atomicCheck_cases (s : State) (a : Word) :
    (a.toNat % 4 ≠ 0 → s.lrCheck a = some .loadAddressMisaligned ∧ s.scCheck a = some .storeAddressMisaligned ∧
      s.amoCheck a = some .storeAddressMisaligned) ∧
    (a.toNat % 4 = 0 →
      s.lrCheck a = (if s.readable a 4 then none else some .loadAccessFault) ∧
      s.scCheck a = (if s.writable a 4 then none else some .storeAccessFault) ∧
      s.amoCheck a = (if s.readable a 4 ∧ s.writable a 4 then none else some .storeAccessFault)) := by
  unfold State.lrCheck State.scCheck State.amoCheck
  refine ⟨fun h => ?_, fun h => ?_⟩
  · have : aligned a 4 = false := by rw [← Bool.not_eq_true]; exact mt (aligned4_eq a).mp h
    simp [this]
  · simp only [(aligned4_eq a).mpr h, Bool.not_true, Bool.false_eq_true, if_false, Bool.and_eq_true, State.canRead_eq,
      State.canWrite_eq]
    exact ⟨trivial, trivial, trivial⟩

/-! ### Loads and stores -/

theorem State.whenPasses_some {s : State} {c : Option Cause} {a : Word} {k : Result} {e : Cause} (h : c = some e) :
    s.whenPasses c a k = s.raise e a := by simp [State.whenPasses, h]

theorem State.whenPasses_none {s : State} {c : Option Cause} {a : Word} {k : Result} (h : c = none) :
    s.whenPasses c a k = k := by simp [State.whenPasses, h]

/-- A load in its three cases, for any continuation. -/
theorem State.loadsFrom_of {s : State} {i : Instr} {a : Word} {n : Nat} {k : Result} {post : State → Prop}
    (e : exec i s = s.whenPasses (s.loadCheck a n) a k) (h : Answers k post) : s.loadsFrom i a n post := by
  obtain ⟨c1, c2, c3⟩ := s.loadCheck_cases a n
  refine ⟨fun h1 => ?_, fun h1 h2 => ?_, fun h1 h2 => ?_⟩
  · exact State.gives_of (e.trans (State.whenPasses_some (c1 h1))) (s.raise_answers _ _)
  · exact State.gives_of (e.trans (State.whenPasses_some (c2 h1 h2))) (s.raise_answers _ _)
  · exact State.gives_of (e.trans (State.whenPasses_none (c3 h1 h2))) h

theorem granuleBase_eq (p : Params) (a : Word) : granuleBase p a = granuleOf p a := by
  unfold granuleBase granuleOf
  have h := Nat.mod_add_div a.toNat p.granule
  have l := a.isLt
  apply BitVec.eq_of_toNat_eq
  simp only [BitVec.toNat_sub, BitVec.toNat_ofNat]
  generalize p.granule * (a.toNat / p.granule) = q at *
  generalize a.toNat % p.granule = r at *
  have : r % 2 ^ 32 = r := Nat.mod_eq_of_lt (by omega)
  rw [this]
  omega

/-- All that the bytes of a store do (20_memory.md R52, R62; 46_a_atomic.md R354). -/
theorem State.stores_store (s : State) (a : Word) (bs : List Byte) (hl : bs.length ≤ 8) : s.stores (s.store a bs) a bs := by
  have off : ∀ k, k < bs.length → (a + BitVec.ofNat 32 k - a).toNat = k := by intro k hk; bv_omega
  refine ⟨fun b hb => ?_, fun k hk => ?_, fun c => ?_, fun g => ?_⟩
  · rw [State.byte_store _ _ _ _ (by omega)]
    have : bs.length ≤ (b - a).toNat := by
      by_contra h
      refine hb (b - a).toNat (by omega) ?_
      simp only [BitVec.ofNat_toNat, BitVec.setWidth_eq]
      bv_omega
    rw [List.getElem?_eq_none this]; rfl
  · rw [State.byte_store _ _ _ _ (by omega), off k hk, List.getElem?_eq_getElem hk]; rfl
  · exact State.mem_stale_store bs s a c
  · rw [State.reservation_store]
    simp only [granuleBase_eq]
    split
    · next h =>
      obtain ⟨k, hk, e⟩ := h
      simp only [reduceCtorEq, false_iff, not_and, not_forall]
      intro hg
      rw [e] at hg
      exact ⟨k, hk, by simpa using hg⟩
    · next h =>
      constructor
      · intro hg; exact ⟨hg, fun k hk e => h ⟨k, hk, by rw [e]; exact hg⟩⟩
      · exact And.left

theorem State.onlyStores_store (s : State) (a : Word) (bs : List Byte) (hl : bs.length ≤ 8) :
    s.onlyStores (s.store a bs).advance a bs := by
  obtain ⟨h1, h2, h3, h4⟩ := s.stores_store a bs hl
  exact ⟨fun r => by simp, by simp, fun r => by simp, by simp [State.keepsCsrs], ⟨h1, h2, h3, h4⟩,
    by simp [State.keepsModel]⟩

/-- A store in its three cases. -/
theorem State.storesTo_of {s : State} {i : Instr} {rs1 : RegIdx} {imm : BitVec 12} {bs : List Byte}
    (e : exec i s = s.storeAt rs1 imm bs) (hl : bs.length ≤ 8) : s.storesTo i (s.readX rs1 + imm.signExtend 32) bs := by
  obtain ⟨c1, c2, c3⟩ := s.storeCheck_cases (s.readX rs1 + imm.signExtend 32) bs.length
  refine ⟨fun h1 => ?_, fun h1 h2 => ?_, fun h1 h2 => ?_⟩
  · exact State.gives_of (e.trans (State.whenPasses_some (c1 h1))) (s.raise_answers _ _)
  · exact State.gives_of (e.trans (State.whenPasses_some (c2 h1 h2))) (s.raise_answers _ _)
  · exact State.gives_of (e.trans (State.whenPasses_none (c3 h1 h2))) (.next (s.onlyStores_store _ _ hl))

/-- The bytes of a word and the word of four bytes, as the claims write them. -/
theorem bytes32_eq (v : Word) : bytes32 v = littleEndian v := by
  simp only [bytes32, littleEndian, List.cons.injEq, and_true]
  refine ⟨?_, ?_, ?_, ?_⟩ <;> (apply BitVec.eq_of_toNat_eq; simp [BitVec.extractLsb'_toNat, Nat.shiftRight_eq_div_pow])

theorem State.read32_eq (s : State) (a : Word) : s.read32 a = s.wordAt a := by
  unfold State.read32 State.wordAt
  generalize s.byte a = b0
  generalize s.byte (a + 1#32) = b1
  generalize s.byte (a + 2#32) = b2
  generalize s.byte (a + 3#32) = b3
  apply BitVec.eq_of_toNat_eq
  have h0 := b0.isLt
  have h1 := b1.isLt
  have h2 := b2.isLt
  have h3 := b3.isLt
  have app : ∀ {m n : Nat} (x : BitVec m) (y : BitVec n), (x ++ y).toNat = x.toNat * 2 ^ n + y.toNat := by
    intro m n x y
    rw [BitVec.toNat_append, ← Nat.shiftLeft_add_eq_or_of_lt y.isLt, Nat.shiftLeft_eq]
  refine (app _ _).trans ?_
  rw [app, app, BitVec.toNat_ofNat]
  omega

/-! ### Control transfer (41_rv32i_control.md R150) -/

theorem fetchAligned_eq (t : Word) : fetchAligned t = true ↔ t.toNat % 4 = 0 := by
  simp only [fetchAligned, beq_iff_eq]
  constructor
  · intro h; have := congrArg BitVec.toNat h; simpa [BitVec.extractLsb'_toNat] using this
  · intro h; apply BitVec.eq_of_toNat_eq; simpa [BitVec.extractLsb'_toNat] using h

theorem State.transfer_answers (s : State) (t : Word) (k : State) :
    (t.toNat % 4 = 0 → s.transfer t k = .next k) ∧
    (t.toNat % 4 ≠ 0 → s.transfer t k = s.raise .instructionAddressMisaligned t) := by
  unfold State.transfer
  refine ⟨fun h => ?_, fun h => ?_⟩
  · rw [if_pos ((fetchAligned_eq t).mpr h)]
  · rw [if_neg (mt (fetchAligned_eq t).mp h)]

theorem State.onlyPc_setPc (s : State) (a : Word) : s.onlyPc (s.setPc a) a :=
  ⟨fun _ => rfl, rfl, fun _ => rfl, ⟨rfl, rfl⟩, fun _ => rfl, ⟨rfl, rfl⟩, rfl, rfl, rfl⟩

theorem State.onlyPc_advance (s : State) : s.onlyPc s.advance (s.pc + 4#32) :=
  ⟨fun _ => rfl, rfl, fun _ => rfl, ⟨rfl, rfl⟩, fun _ => rfl, ⟨rfl, rfl⟩, rfl, rfl, rfl⟩

theorem State.onlyLink_linkAndJump (s : State) (rd : RegIdx) (a : Word) : s.onlyLink (s.linkAndJump rd a) rd a :=
  ⟨fun r => by unfold State.linkAndJump; rw [State.readX_setPc, State.readX_writeX], by simp,
    fun r => State.readD_congr (by simp) r, by simp [State.keepsCsrs], fun b => State.byte_congr (by simp) b,
    by simp [State.keepsHidden], by simp [State.keepsModel]⟩

/-- A branch in its three cases. -/
theorem State.branchesWhen_of {s : State} {i : Instr} {off : BitVec 13} {taken : Bool} {cond : Prop}
    (e : exec i s = s.branch taken off) (h : taken = true ↔ cond) : s.branchesWhen i off cond := by
  obtain ⟨t1, t2⟩ := s.transfer_answers (s.branchTarget off) (s.setPc (s.branchTarget off))
  refine ⟨fun c ha => ?_, fun c ha => ?_, fun c => ?_⟩
  · refine State.gives_of (e.trans ?_) (.next (s.onlyPc_setPc _))
    rw [State.branch, if_pos (h.mpr c), t1 ha]; rfl
  · refine State.gives_of (e.trans ?_) (s.raise_answers _ _)
    rw [State.branch, if_pos (h.mpr c), t2 ha]; rfl
  · refine State.gives_of (e.trans ?_) (.next s.onlyPc_advance)
    rw [State.branch, if_neg (mt h.mp c)]

/-- A jump in its two cases. -/
theorem State.jumpsTo_of {s : State} {i : Instr} {rd : RegIdx} {a : Word}
    (e : exec i s = s.transfer a (s.linkAndJump rd a)) : s.jumpsTo i rd a :=
  ⟨fun h => State.gives_of (e.trans ((s.transfer_answers a _).1 h)) (.next (s.onlyLink_linkAndJump rd a)),
    fun h => State.gives_of (e.trans ((s.transfer_answers a _).2 h)) (s.raise_answers _ _)⟩

/-! ### The A group -/

/-- A read-modify-write in its three cases. -/
theorem State.modifies_of {s : State} {i : Instr} {rd rs1 rs2 : RegIdx} {op : Word → Word → Word}
    (e : exec i s = s.amo i rd rs1 rs2 op) (h : s.params.extA = true) :
    s.modifies i rd (s.readX rs1) (op (s.wordAt (s.readX rs1)) (s.readX rs2)) := by
  obtain ⟨c1, c2⟩ := s.atomicCheck_cases (s.readX rs1)
  have e := e.trans (State.whenAdmitted_true h)
  refine ⟨fun h1 => ?_, fun h1 h2 => ?_, fun h1 h2 h3 => ?_⟩
  · exact State.gives_of (e.trans (State.whenPasses_some (c1 h1).2.2)) (s.raise_answers _ _)
  · exact State.gives_of (e.trans (State.whenPasses_some ((c2 h1).2.2.trans (if_neg h2)))) (s.raise_answers _ _)
  · refine State.gives_of (e.trans (State.whenPasses_none ((c2 h1).2.2.trans (if_pos ⟨h2, h3⟩)))) (.next ?_)
    rw [bytes32_eq, State.read32_eq]
    obtain ⟨s1, s2, s3, s4⟩ := s.stores_store (s.readX rs1)
      (littleEndian (op (s.wordAt (s.readX rs1)) (s.readX rs2))) (by simp [littleEndian])
    exact ⟨fun r => by rw [State.readX_advance, State.readX_writeX, State.readX_store], by simp, fun r => by simp,
      by simp [State.keepsCsrs], ⟨fun b hb => by simpa using s1 b hb, fun k hk => by simpa using s2 k hk,
        fun c => by simpa using s3 c, fun g => by simpa using s4 g⟩, by simp [State.keepsModel]⟩

end Sys2Proof.Machine
end

