-- ==== Sys2Proof/Laws/Csr.lean ====
section
/-! SUPPORT. Control and status registers: a read after a write, and what a CSR instruction answers (10_state.md R35, R38;
43_rv32i_system.md R190). -/

namespace Sys2Proof.Machine

/-- Looking a CSR up after an update. -/
theorem csrLookup_csrUpdate (l : List (CsrIdx × Csr)) (c : CsrIdx) (v : Word) (d : CsrIdx) :
    csrLookup (csrUpdate l c v) d = if d = c then (csrLookup l c).map (fun r => { r with value := v }) else csrLookup l d := by
  induction l with
  | nil => simp [csrUpdate, csrLookup]
  | cons p rest ih =>
    obtain ⟨k, r⟩ := p
    simp only [csrUpdate]
    by_cases h : k = c
    · subst h; simp only [if_true, csrLookup]
      by_cases e : k = d
      · subst e; simp
      · have e' : ¬ d = k := fun x => e x.symm
        simp [e, e']
    · simp only [if_neg h, csrLookup, ih]
      by_cases e : k = d
      · subst e; simp [h]
      · simp [e]

/-- What a number reaches depends on `fcsr`, `csrs` and the parameters alone. -/
theorem State.csr_congr {s t : State} (h : t.fcsr = s.fcsr) (g : t.csrs = s.csrs) (p : t.params = s.params) (c) : t.csr c = s.csr c := by
  simp [State.csr, State.fflags, State.frm, State.readFcsr, h, g, p]

/-- A value under a mask of its low `n` bits is those bits. -/
theorem masked_low (n : Nat) (m : Word) (hm : ∀ i : Nat, i < 32 → m.getLsbD i = decide (i < n)) (k w : Word) (h : k &&& ~~~m = 0#32) :
   ((k &&& ~~~m) ||| (w &&& m)) = (((k &&& ~~~m) ||| (w &&& m)).extractLsb' 0 n).setWidth 32 := by
  rw [h]
  apply BitVec.eq_of_getLsbD_eq; intro i hi
  rw [BitVec.getLsbD_setWidth, BitVec.getLsbD_extractLsb', BitVec.getLsbD_or, BitVec.getLsbD_and, hm i hi]
  simp only [BitVec.getLsbD_or, BitVec.getLsbD_and, Nat.zero_add, hm i hi]
  by_cases q : i < n <;> simp [q, hi]

/-- The complement of a mask of the low `n` bits clears an `n`-bit value. -/
theorem setWidth_and_not (n : Nat) (m : Word) (hm : ∀ i : Nat, i < 32 → m.getLsbD i = decide (i < n)) (f : BitVec n) : (f.setWidth 32) &&& ~~~m = 0#32 := by
  apply BitVec.eq_of_getLsbD_eq; intro i hi
  rw [BitVec.getLsbD_and, BitVec.getLsbD_not, hm i hi, BitVec.getLsbD_setWidth]
  by_cases q : i < n
  · simp [q]
  · simp [q, BitVec.getLsbD_of_ge f i (by omega)]

/-- The write mask of `fflags`. -/
theorem mask5_bit : ∀ i : Nat, i < 32 → (0x1F#32).getLsbD i = decide (i < 5) := by
  have : ∀ i : Fin 32, (0x1F#32).getLsbD i = decide (i.val < 5) := by decide
  exact fun i hi => this ⟨i, hi⟩
/-- The write mask of `frm`. -/
theorem mask3_bit : ∀ i : Nat, i < 32 → (0x7#32).getLsbD i = decide (i < 3) := by
  have : ∀ i : Fin 32, (0x7#32).getLsbD i = decide (i.val < 3) := by decide
  exact fun i hi => this ⟨i, hi⟩
/-- The write mask of `fcsr`. -/
theorem mask8_bit : ∀ i : Nat, i < 32 → (0xFF#32).getLsbD i = decide (i < 8) := by
  have : ∀ i : Fin 32, (0xFF#32).getLsbD i = decide (i.val < 8) := by decide
  exact fun i hi => this ⟨i, hi⟩

/-- What `fcsr` reads after a write (10_state.md R35). -/
theorem State.readFcsr_writeFcsr (s : State) (v : Word) : (s.writeFcsr (v.extractLsb' 5 3) (v.extractLsb' 0 5)).readFcsr = (v.extractLsb' 0 8).setWidth 32 := by
  have z : ∀ i, i < 32 → (0#24 ++ v.extractLsb' 5 3 ++ v.extractLsb' 0 5 : BitVec (24 + 3 + 5)).getLsbD i = (decide (i < 8) && v.getLsbD i) := by
    intro i hi
    rw [BitVec.getLsbD_append, BitVec.getLsbD_append]
    by_cases h5 : i < 5
    · have : i < 8 := by omega
      simp [h5, this]
    · by_cases h8 : i < 8
      · have : i - 5 < 3 := by omega
        have e : 5 + (i - 5) = i := by omega
        simp [h5, h8, this, e]
      · have : ¬ i - 5 < 3 := by omega
        simp [h5, h8, this]
  apply BitVec.eq_of_getLsbD_eq; intro i hi
  unfold State.readFcsr
  rw [BitVec.getLsbD_and, mask8_bit i hi, BitVec.getLsbD_setWidth, BitVec.getLsbD_extractLsb']
  refine (congrArg (· && decide (i < 8)) (z i hi)).trans ?_
  by_cases h8 : i < 8 <;> simp [h8, hi]

/-- An existing CSR reads, after a write, what was written under its mask (10_state.md R38). -/
theorem State.csr_setCsr {s : State} {c : CsrIdx} {r : Csr} (h : s.csr c = some r) (w : Word) :
    (s.setCsr c (maskedWrite r w)).csr c = some { r with value := maskedWrite r w } := by
  unfold State.csr at h
  by_cases f : s.params.extF = true
  · by_cases c1 : c = csrFflags
    · subst c1
      simp [f] at h
      subst h
      simp only [State.setCsr, f, maskedWrite, State.csr]
      simp only [beq_self_eq_true, Bool.and_self, if_true, State.fflags_writeFcsr, State.writeFcsr_params, f]
      congr 1; rw [← masked_low 5 _ mask5_bit _ _ (setWidth_and_not 5 _ mask5_bit _)]
    · by_cases c2 : c = csrFrm
      · subst c2
        simp [f, csrFrm, csrFflags] at h
        subst h
        have e : (csrFrm == csrFflags) = false := by decide
        simp only [State.setCsr, f, maskedWrite, State.csr]
        simp only [beq_self_eq_true, Bool.and_self, if_true, State.frm_writeFcsr, State.writeFcsr_params, f, e, Bool.and_false, Bool.false_eq_true, if_false]
        congr 1; rw [← masked_low 3 _ mask3_bit _ _ (setWidth_and_not 3 _ mask3_bit _)]
      · by_cases c3 : c = csrFcsr
        · subst c3
          have e : (csrFcsr == csrFflags) = false := by decide
          have e2 : (csrFcsr == csrFrm) = false := by decide
          simp only [f, e, e2, Bool.and_false, Bool.false_eq_true, if_false, beq_self_eq_true, Bool.and_self, if_true, Option.some.injEq] at h
          subst h
          simp only [State.setCsr, f, maskedWrite, State.csr]
          simp only [beq_self_eq_true, Bool.and_self, if_true, State.writeFcsr_params, f, e, e2, Bool.and_false, Bool.false_eq_true, if_false]
          congr 1
          rw [State.readFcsr_writeFcsr]
          have z : s.readFcsr &&& ~~~0xFF#32 = 0#32 := by
            unfold State.readFcsr
            apply BitVec.eq_of_getLsbD_eq; intro i hi
            rw [BitVec.getLsbD_and, BitVec.getLsbD_and, BitVec.getLsbD_not, mask8_bit i hi]
            by_cases q : i < 8 <;> simp [q]
          rw [← masked_low 8 _ mask8_bit _ _ z]
        · have q : ∀ t : State, t.csr c = csrLookup t.csrs c := by
            intro t; simp [State.csr, c1, c2, c3]
          rw [q]
          simp only [f, beq_eq_false_iff_ne.mpr c1, beq_eq_false_iff_ne.mpr c2, beq_eq_false_iff_ne.mpr c3, Bool.and_false, Bool.false_eq_true, if_false] at h
          simp only [State.setCsr, f, beq_eq_false_iff_ne.mpr c1, beq_eq_false_iff_ne.mpr c2, beq_eq_false_iff_ne.mpr c3, Bool.and_false, Bool.false_eq_true, if_false, csrLookup_csrUpdate, if_true, h, Option.map]
  · have f : s.params.extF = false := by simpa using f
    simp only [f, Bool.false_and, Bool.false_eq_true, if_false] at h
    have q : ∀ t : State, t.params = s.params → t.csr c = csrLookup t.csrs c := by
      intro t ht; simp [State.csr, ht, f]
    rw [q _ (by simp)]
    simp only [State.setCsr, f, Bool.false_and, Bool.false_eq_true, if_false, csrLookup_csrUpdate, if_true, h, Option.map]

/-- A write to one CSR leaves the others. -/
theorem State.csr_setCsr_other (s : State) (c d : CsrIdx) (v : Word) (h : ¬ sameCsr s.params c d) : (s.setCsr c v).csr d = s.csr d := by
  unfold sameCsr at h
  push Not at h
  obtain ⟨h1, h2⟩ := h
  by_cases f : s.params.extF = true
  · have h2 := h2 f
    by_cases cw : c = 0x001#12 ∨ c = 0x002#12 ∨ c = 0x003#12
    · have hd := h2 cw
      have dd : ∀ t : State, t.csr d = csrLookup t.csrs d := by
        intro t; simp [State.csr, csrFflags, csrFrm, csrFcsr, hd]
      rw [dd, dd]
      rcases cw with rfl | rfl | rfl <;> simp [State.setCsr, f, csrFflags, csrFrm, csrFcsr]
    · push Not at cw
      have : s.setCsr c v = { s with csrs := csrUpdate s.csrs c v } := by simp [State.setCsr, csrFflags, csrFrm, csrFcsr, cw]
      rw [this]
      simp only [State.csr, csrLookup_csrUpdate, if_neg (fun e : d = c => h1 e.symm)]
      rfl
  · have f : s.params.extF = false := by simpa using f
    have : s.setCsr c v = { s with csrs := csrUpdate s.csrs c v } := by simp [State.setCsr, f]
    rw [this]
    simp only [State.csr, f, csrLookup_csrUpdate, if_neg (fun e : d = c => h1 e.symm)]
    rfl

/-- Only a window reaches `fcsr`. -/
theorem State.setCsr_fcsr (s : State) (c : CsrIdx) (v : Word) (h : ¬ isWindow s.params c) : (s.setCsr c v).fcsr = s.fcsr := by
  by_cases f : s.params.extF = true
  · simp only [isWindow, f, true_and, not_or] at h
    simp [State.setCsr, csrFflags, csrFrm, csrFcsr, h]
  · simp [State.setCsr, f]

/-- A window reaches nothing but `fcsr`. -/
theorem State.setCsr_csrs (s : State) (c : CsrIdx) (v : Word) (h : isWindow s.params c) : (s.setCsr c v).csrs = s.csrs := by
  obtain ⟨f, rfl | rfl | rfl⟩ := h <;> simp [State.setCsr, f, csrFflags, csrFrm, csrFcsr]

/-- What `csrAccess` answers, in the terms of `State.runsCsr`. -/
theorem State.runsCsr_of {s : State} {i : Instr} {rd : RegIdx} {c : CsrIdx} {w r : Bool} {W R : Prop} {new : Word → Word}
    (e : exec i s = s.csrAccess i rd c w r new) (hw : w = true ↔ W) (hr : r = true ↔ R) : s.runsCsr i rd c W R new := by
  refine ⟨fun h => ?_, fun q h hW hq => ?_, fun q h hq => ?_⟩
  · refine State.gives_of (e.trans ?_) (s.illegal_answers i)
    simp [State.csrAccess, h]
  · refine State.gives_of (e.trans ?_) (s.illegal_answers i)
    simp [State.csrAccess, h, hw.mpr hW, hq]
  · have ok : (w && !q.writable) = false := by
      cases w
      · rfl
      · simp [hq (hw.mp rfl)]
    refine State.gives_of (r := .next _) (e.trans (by simp only [State.csrAccess, h, ok]; rfl)) (.next ?_)
    have av : (s.afterRead q r).csr = s.csr := by funext d; exact State.csr_congr (by simp) (by simp) (by simp) d
    refine ⟨s.csrValue q, rfl, ?_⟩
    cases w with
    | false =>
      have nW : ¬ W := fun x => by simpa using hw.mpr x
      simp only [Bool.false_eq_true, if_false]
      refine ⟨fun x => by rw [State.readX_advance, State.readX_writeX, State.readX_afterRead], by simp, fun x => by simp, fun x => by simp, by simp [State.keepsHidden], by simp, by simp,
        fun x => absurd x nW, fun _ => by simp [State.keepsCsrs], fun d _ => ?_, fun _ => by simp, fun _ => by simp,
        fun _ _ => by simp [State.frm], fun _ _ => by simp [State.fflags], fun x => ?_, fun x => ?_⟩
      · exact State.csr_congr (by simp) (by simp) (by simp) d
      · simp [x.1, hr.mpr x.2]
      · simp only [State.advance_draws, State.writeX_draws, State.afterRead_draws]
        rw [if_neg]; intro y; simp at y; exact x ⟨y.1, hr.mp y.2⟩
    | true =>
      simp only [if_true]
      refine ⟨fun x => by rw [State.readX_advance, State.readX_writeX, State.readX_setCsr, State.readX_afterRead], by simp, fun x => by simp, fun x => by simp, by simp [State.keepsHidden], by simp, by simp,
        fun _ => ?_, fun x => absurd (hw.mp rfl) x, fun d hd => ?_, fun x => ?_, fun x => ?_, fun x y => ?_, fun x y => ?_,
        fun x => ?_, fun x => ?_⟩
      · rw [State.csr_congr (s := (s.afterRead q r).setCsr c (maskedWrite q (new (s.csrValue q)))) (by simp) (by simp) (by simp)]
        exact State.csr_setCsr (by rw [av]; exact h) _
      · rw [State.csr_congr (s := (s.afterRead q r).setCsr c (maskedWrite q (new (s.csrValue q)))) (by simp) (by simp) (by simp), State.csr_setCsr_other _ _ _ _ (by simpa using hd), av]
      · rw [State.advance_fcsr, State.writeX_fcsr, State.setCsr_fcsr _ _ _ (by simpa using x)]; simp
      · rw [State.advance_csrs, State.writeX_csrs, State.setCsr_csrs _ _ _ (by simpa using x)]; simp
      · subst y
        simp [State.frm, State.setCsr, csrFflags, x.1, fcsr_fields]
      · subst y
        simp [State.fflags, State.setCsr, csrFflags, csrFrm, x.1, fcsr_fields]
      · simp [x.1, hr.mpr x.2]
      · simp only [State.advance_draws, State.writeX_draws, State.setCsr_draws, State.afterRead_draws]
        rw [if_neg]; intro y; simp at y; exact x ⟨y.1, hr.mp y.2⟩

end Sys2Proof.Machine
end

