-- ==== Sys2Proof/Laws/Decode.lean ====
section
/-! SUPPORT. Cutting a word into its fields and putting it together again, and the same for every immediate
(30_encoding.md R82, R84 to R88, R91, R92). -/

namespace Sys2Proof.Laws

/-- One bit under two spellings of its number. -/
theorem word_bit (w : Word) (i j : Nat) (h : j = i) : w.getLsbD j = w.getLsbD i := h ▸ rfl

/-- A word is made of its six fields (30_encoding.md R82). -/
theorem pack_fields (w : Word) : pack (funct7 w) (fieldRs2 w) (fieldRs1 w) (funct3 w) (fieldRd w) (opcode w) = w := by
  apply BitVec.eq_of_getLsbD_eq
  intro i hi
  simp only [funct7, fieldRs2, fieldRs1, funct3, fieldRd, opcode, pack, BitVec.getLsbD_extractLsb', BitVec.getLsbD_append]
  repeat' split
  all_goals
    rw [decide_eq_true (by omega), Bool.true_and]
    exact word_bit w _ _ (by omega)

/-- The six fields of a word made of six fields (R82). -/
theorem fields_pack (f7 : BitVec 7) (r2 r1 : RegIdx) (f3 : BitVec 3) (rd : RegIdx) (op : BitVec 7) :
    funct7 (pack f7 r2 r1 f3 rd op) = f7 ∧ fieldRs2 (pack f7 r2 r1 f3 rd op) = r2 ∧ fieldRs1 (pack f7 r2 r1 f3 rd op) = r1 ∧
    funct3 (pack f7 r2 r1 f3 rd op) = f3 ∧ fieldRd (pack f7 r2 r1 f3 rd op) = rd ∧ opcode (pack f7 r2 r1 f3 rd op) = op := by
  refine ⟨?_, ?_, ?_, ?_, ?_, ?_⟩ <;>
  · apply BitVec.eq_of_getLsbD_eq
    intro i hi
    simp only [funct7, fieldRs2, fieldRs1, funct3, fieldRd, opcode, pack, BitVec.getLsbD_extractLsb', BitVec.getLsbD_append, hi, decide_true, Bool.true_and]
    repeat' split
    all_goals first | omega | (congr 1; omega)

/-- Decoding a word made of six fields. -/
theorem decodeWord_pack {f7 : BitVec 7} {r2 r1 : RegIdx} {f3 : BitVec 3} {rd : RegIdx} {op : BitVec 7} {i : Instr}
   (h : decodeFields f7 r2 r1 f3 rd op = some i) : decodeWord (pack f7 r2 r1 f3 rd op) = .ok i := by
  obtain ⟨a, b, c, d, e, f⟩ := fields_pack f7 r2 r1 f3 rd op
  unfold decodeWord; rw [a, b, c, d, e, f, h]

/-- R84 -/
theorem immI_split (imm : BitVec 12) : immI (imm.extractLsb' 5 7) (imm.extractLsb' 0 5) = imm := by
  apply BitVec.eq_of_getLsbD_eq
  intro i hi
  simp only [immI, BitVec.getLsbD_extractLsb', BitVec.getLsbD_append]
  split <;> (rw [decide_eq_true (by omega), Bool.true_and]; congr 1; omega)

/-- R85 -/
theorem immS_split (imm : BitVec 12) : immS (imm.extractLsb' 5 7) (imm.extractLsb' 0 5) = imm := immI_split imm

/-- R86, for an even offset -/
theorem offB_split (o : BitVec 13) (h : o.getLsbD 0 = false) : offB (o.extractLsb' 12 1 ++ o.extractLsb' 5 6) (o.extractLsb' 1 4 ++ o.extractLsb' 11 1) = o := by
  apply BitVec.eq_of_getLsbD_eq
  intro i hi
  have e0 : i = 0 → o.getLsbD i = false := fun e => e ▸ h
  simp only [offB, BitVec.getLsbD_extractLsb', BitVec.getLsbD_append]
  repeat' split
  all_goals first | (rw [e0 (by omega)]; simp; done) | skip
  all_goals simp (disch := omega) only [decide_eq_true, Bool.true_and]
  all_goals first | omega | (congr 1; omega)

/-- R88, for an even offset -/
theorem offJ_split (o : BitVec 21) (h : o.getLsbD 0 = false) : offJ (o.extractLsb' 20 1 ++ o.extractLsb' 5 6) (o.extractLsb' 1 4 ++ o.extractLsb' 11 1) (o.extractLsb' 15 5) (o.extractLsb' 12 3) = o := by
  apply BitVec.eq_of_getLsbD_eq
  intro i hi
  have e0 : i = 0 → o.getLsbD i = false := fun e => e ▸ h
  simp only [offJ, BitVec.getLsbD_extractLsb', BitVec.getLsbD_append]
  repeat' split
  all_goals first | (rw [e0 (by omega)]; simp; done) | skip
  all_goals simp (disch := omega) only [decide_eq_true, Bool.true_and]
  all_goals first | omega | (congr 1; omega)

/-- R87 -/
theorem immU_split (imm : BitVec 20) : immU (imm.extractLsb' 13 7) (imm.extractLsb' 8 5) (imm.extractLsb' 3 5) (imm.extractLsb' 0 3) = imm := by
  apply BitVec.eq_of_getLsbD_eq
  intro i hi
  simp only [immU, BitVec.getLsbD_extractLsb', BitVec.getLsbD_append]
  repeat' split
  all_goals (rw [decide_eq_true (by omega), Bool.true_and]; congr 1; omega)

/-- R91 -/
theorem hi5_fmt_append (a : BitVec 5) (b : BitVec 2) : hi5 (a ++ b) = a ∧ fmt (a ++ b) = b := by revert a b; decide

/-- R92 -/
theorem hi5_aq_rl_append (a : BitVec 5) (b c : BitVec 1) : hi5 (a ++ (b ++ c)) = a ∧ aqBit (a ++ (b ++ c)) = b ∧ rlBit (a ++ (b ++ c)) = c := by revert a b c; decide

/-- A bit is 0 or 1. -/
theorem bit_cases (b : BitVec 1) : b = 0#1 ∨ b = 1#1 := by revert b; decide

/-- R84, the other way -/
theorem split_immI (f7 : BitVec 7) (r2 : RegIdx) : (immI f7 r2).extractLsb' 5 7 = f7 ∧ (immI f7 r2).extractLsb' 0 5 = r2 := by
  constructor <;>
  · apply BitVec.eq_of_getLsbD_eq
    intro i hi
    simp only [immI, BitVec.getLsbD_extractLsb', BitVec.getLsbD_append]
    simp (disch := omega) only [decide_eq_true, Bool.true_and]
    split <;> first | omega | (congr 1; omega)

/-- R85, the other way -/
theorem split_immS (f7 : BitVec 7) (r2 : RegIdx) : (immS f7 r2).extractLsb' 5 7 = f7 ∧ (immS f7 r2).extractLsb' 0 5 = r2 := split_immI f7 r2

/-- R87, the other way -/
theorem split_immU (f7 : BitVec 7) (r2 r1 : RegIdx) (f3 : BitVec 3) : (immU f7 r2 r1 f3).extractLsb' 13 7 = f7 ∧ (immU f7 r2 r1 f3).extractLsb' 8 5 = r2
   ∧ (immU f7 r2 r1 f3).extractLsb' 3 5 = r1 ∧ (immU f7 r2 r1 f3).extractLsb' 0 3 = f3 := by
  refine ⟨?_, ?_, ?_, ?_⟩ <;>
  · apply BitVec.eq_of_getLsbD_eq
    intro i hi
    simp only [immU, BitVec.getLsbD_extractLsb', BitVec.getLsbD_append]
    simp (disch := omega) only [decide_eq_true, Bool.true_and]
    repeat' split
    all_goals first | omega | (congr 1; omega)

/-- R86, the other way; the offset is even -/
theorem split_offB (f7 : BitVec 7) (rd : RegIdx) : (offB f7 rd).extractLsb' 12 1 ++ (offB f7 rd).extractLsb' 5 6 = f7 ∧
    (offB f7 rd).extractLsb' 1 4 ++ (offB f7 rd).extractLsb' 11 1 = rd ∧ (offB f7 rd).getLsbD 0 = false := by
  refine ⟨?_, ?_, ?_⟩
  rotate_left 2
  · (unfold offB; rw [BitVec.getLsbD_append]; rfl)
  all_goals
    apply BitVec.eq_of_getLsbD_eq
    intro i hi
    simp only [offB, BitVec.getLsbD_extractLsb', BitVec.getLsbD_append]
    repeat' split
    all_goals first | omega | skip
    all_goals simp (disch := omega) only [decide_eq_true, Bool.true_and]
    all_goals (congr 1; omega)

/-- R88, the other way; the offset is even -/
theorem split_offJ (f7 : BitVec 7) (r2 r1 : RegIdx) (f3 : BitVec 3) : (offJ f7 r2 r1 f3).extractLsb' 20 1 ++ (offJ f7 r2 r1 f3).extractLsb' 5 6 = f7 ∧
    (offJ f7 r2 r1 f3).extractLsb' 1 4 ++ (offJ f7 r2 r1 f3).extractLsb' 11 1 = r2 ∧ (offJ f7 r2 r1 f3).extractLsb' 15 5 = r1 ∧
    (offJ f7 r2 r1 f3).extractLsb' 12 3 = f3 ∧ (offJ f7 r2 r1 f3).getLsbD 0 = false := by
  refine ⟨?_, ?_, ?_, ?_, ?_⟩
  rotate_left 4
  · (unfold offJ; rw [BitVec.getLsbD_append]; rfl)
  all_goals
    apply BitVec.eq_of_getLsbD_eq
    intro i hi
    simp only [offJ, BitVec.getLsbD_extractLsb', BitVec.getLsbD_append]
    repeat' split
    all_goals first | omega | skip
    all_goals simp (disch := omega) only [decide_eq_true, Bool.true_and]
    all_goals (congr 1; omega)

/-- R91, R92, the other way -/
theorem append_hi5 (f7 : BitVec 7) : hi5 f7 ++ fmt f7 = f7 ∧ hi5 f7 ++ (aqBit f7 ++ rlBit f7) = f7 := by revert f7; decide

end Sys2Proof.Laws
end

