-- ==== Sys2Proof/Laws/Exec.lean ====
section
/-! SUPPORT. Said once: every way in which an instruction can change the state. What holds of every instruction is then proved by
cases on the effect and not on the 139 meanings. -/

namespace Sys2Proof.Machine

/-- The next states that `exec i s` can answer. -/
inductive State.Effect (s : State) (i : Instr) : State → Prop where
  /-- A trap (60_exceptions.md R404). -/
  | trap (e : Cause) (info : Word) : State.Effect s i (s.takeTrap e info)
  /-- An x register. -/
  | intReg (rd : RegIdx) (v : Word) (hm : i.writesMemory = false) (hp : i.writesPc = false) :
      State.Effect s i (s.writeX rd v).advance
  /-- An f register; its upper half is zero when FLEN is not 64. -/
  | fpReg (rd : RegIdx) (v : DWord) (hm : i.writesMemory = false) (hp : i.writesPc = false)
      (hu : hasD s.params = false → v.extractLsb' 32 32 = 0#32) : State.Effect s i (s.writeD rd v).advance
  /-- An f register and flags. -/
  | fpRegFlags (rd : RegIdx) (v : DWord) (fl : FpFlags) (hm : i.writesMemory = false) (hp : i.writesPc = false)
      (hu : hasD s.params = false → v.extractLsb' 32 32 = 0#32) : State.Effect s i ((s.writeD rd v).accrue fl).advance
  /-- An x register and flags. -/
  | intRegFlags (rd : RegIdx) (v : Word) (fl : FpFlags) (hm : i.writesMemory = false) (hp : i.writesPc = false) :
      State.Effect s i ((s.writeX rd v).accrue fl).advance
  /-- `pc + 4` alone: a fence, or a branch that is not taken. -/
  | nothing (hm : i.writesMemory = false) : State.Effect s i s.advance
  /-- A taken branch. -/
  | branch (a : Word) (ha : a.toNat % 4 = 0) (hm : i.writesMemory = false) (hp : i.writesPc = true) :
      State.Effect s i (s.setPc a)
  /-- A jump. -/
  | jump (rd : RegIdx) (a : Word) (ha : a.toNat % 4 = 0) (hm : i.writesMemory = false) (hp : i.writesPc = true) :
      State.Effect s i (s.linkAndJump rd a)
  /-- A store. -/
  | store (a : Word) (bs : List Byte) (hl : bs.length ≤ 8) (hm : i.writesMemory = true) (hp : i.writesPc = false) :
      State.Effect s i (s.store a bs).advance
  /-- A read-modify-write. -/
  | amo (a : Word) (bs : List Byte) (rd : RegIdx) (v : Word) (hl : bs.length ≤ 8) (hm : i.writesMemory = true)
      (hp : i.writesPc = false) : State.Effect s i ((s.store a bs).writeX rd v).advance
  /-- lr.w -/
  | reserve (rd rs1 : RegIdx) (aq rl : BitVec 1) (v : Word) (hi : i = .lrW rd rs1 aq rl) :
      State.Effect s i (State.writeX { s with reservation := some (granuleBase s.params (s.readX rs1)) } rd v).advance
  /-- sc.w that succeeds. -/
  | condStored (rd rs1 rs2 : RegIdx) (aq rl : BitVec 1) (bs : List Byte) (hl : bs.length ≤ 8)
      (hi : i = .scW rd rs1 rs2 aq rl) :
      State.Effect s i ((State.store { s with reservation := none } (s.readX rs1) bs).writeX rd 0#32).advance
  /-- sc.w that fails. -/
  | condFailed (rd rs1 rs2 : RegIdx) (aq rl : BitVec 1) (hi : i = .scW rd rs1 rs2 aq rl) :
      State.Effect s i (State.writeX { s with reservation := none } rd 1#32).advance
  /-- fence.i -/
  | fenceI (rd rs1 : RegIdx) (imm : BitVec 12) (hi : i = .fenceI rd rs1 imm) :
      State.Effect s i { s with stale := [] }.advance
  /-- A CSR instruction that writes. -/
  | csrWritten (rd : RegIdx) (c : CsrIdx) (r : Csr) (b : Bool) (v old : Word) (hi : i.isCsr = true) :
      State.Effect s i (((s.afterRead r b).setCsr c v).writeX rd old).advance
  /-- A CSR instruction that only reads. -/
  | csrRead (rd : RegIdx) (r : Csr) (b : Bool) (old : Word) (hi : i.isCsr = true) :
      State.Effect s i ((s.afterRead r b).writeX rd old).advance

/-- The answer `r` is a next state that is an effect of `i` at `s`. -/
def State.EffectOf (s : State) (i : Instr) (r : Result) : Prop := ∃ t, r = .next t ∧ s.Effect i t

/-! ### The effect of each shared operation -/

theorem State.effect_illegal (s : State) (i : Instr) : s.EffectOf i (s.illegal i) := ⟨_, rfl, .trap _ _⟩

theorem State.effect_raise (s : State) (i : Instr) (e : Cause) (info : Word) : s.EffectOf i (s.raise e info) :=
  ⟨_, rfl, .trap _ _⟩

theorem State.effect_finishX {s : State} {i : Instr} (rd : RegIdx) (v : Word) (hm : i.writesMemory = false)
    (hp : i.writesPc = false) : s.EffectOf i (s.finishX rd v) := ⟨_, rfl, .intReg rd v hm hp⟩

theorem State.effect_whenAdmitted {s : State} {i : Instr} {b : Bool} {k : Result}
    (h : b = true → s.EffectOf i k) : s.EffectOf i (s.whenAdmitted b i k) := by
  cases b
  · exact s.effect_illegal i
  · exact h rfl

theorem State.effect_whenPasses {s : State} {i : Instr} {c : Option Cause} {a : Word} {k : Result}
    (h : s.EffectOf i k) : s.EffectOf i (s.whenPasses c a k) := by
  cases c
  · exact h
  · exact s.effect_raise i _ _

theorem State.effect_rounding {s : State} {i : Instr} {b : Bool} {rm : BitVec 3} {k : RoundingMode → Result}
    (h : ∀ m, b = true → s.EffectOf i (k m)) : s.EffectOf i (s.rounding b i rm k) :=
  State.effect_whenAdmitted fun hb => by
    cases s.effectiveMode rm
    · exact s.effect_illegal i
    · exact h _ hb

theorem boxS_upper {p : Params} (v : Word) (h : hasD p = false) : (boxS p v).extractLsb' 32 32 = 0#32 := by
  rw [(boxS_fields p v).2, h]; rfl

theorem State.effect_finishS {s : State} {i : Instr} (rd : RegIdx) (r : Word × FpFlags) (hm : i.writesMemory = false)
    (hp : i.writesPc = false) : s.EffectOf i (s.finishS rd r) :=
  ⟨_, rfl, .fpRegFlags rd _ r.2 hm hp (boxS_upper r.1)⟩

theorem State.effect_finishD {s : State} {i : Instr} (rd : RegIdx) (r : DWord × FpFlags) (hd : hasD s.params = true)
    (hm : i.writesMemory = false) (hp : i.writesPc = false) : s.EffectOf i (s.finishD rd r) :=
  ⟨_, rfl, .fpRegFlags rd _ r.2 hm hp fun h => by simp [hd] at h⟩

theorem State.effect_finishFlagsX {s : State} {i : Instr} (rd : RegIdx) (r : Word × FpFlags)
    (hm : i.writesMemory = false) (hp : i.writesPc = false) : s.EffectOf i (s.finishFlagsX rd r) :=
  ⟨_, rfl, .intRegFlags rd r.1 r.2 hm hp⟩

theorem State.effect_writeS {s : State} {i : Instr} (rd : RegIdx) (v : Word) (hm : i.writesMemory = false)
    (hp : i.writesPc = false) : s.EffectOf i (.next (s.writeS rd v).advance) :=
  ⟨_, rfl, .fpReg rd _ hm hp (boxS_upper v)⟩

theorem State.effect_writeD {s : State} {i : Instr} (rd : RegIdx) (v : DWord) (hd : hasD s.params = true)
    (hm : i.writesMemory = false) (hp : i.writesPc = false) : s.EffectOf i (.next (s.writeD rd v).advance) :=
  ⟨_, rfl, .fpReg rd _ hm hp fun h => by simp [hd] at h⟩

theorem State.effect_storeAt {s : State} {i : Instr} (rs1 : RegIdx) (imm : BitVec 12) (bs : List Byte)
    (hl : bs.length ≤ 8) (hm : i.writesMemory = true) (hp : i.writesPc = false) : s.EffectOf i (s.storeAt rs1 imm bs) :=
  State.effect_whenPasses ⟨_, rfl, .store _ bs hl hm hp⟩

theorem State.effect_branch {s : State} {i : Instr} (taken : Bool) (off : BitVec 13) (hm : i.writesMemory = false)
    (hp : i.writesPc = true) : s.EffectOf i (s.branch taken off) := by
  cases taken
  · exact ⟨_, rfl, .nothing hm⟩
  · obtain ⟨t1, t2⟩ := s.transfer_answers (s.branchTarget off) (s.setPc (s.branchTarget off))
    by_cases h : (s.branchTarget off).toNat % 4 = 0
    · exact ⟨_, t1 h, .branch _ h hm hp⟩
    · exact ⟨_, t2 h, .trap _ _⟩

theorem State.effect_jump {s : State} {i : Instr} (rd : RegIdx) (a : Word) (hm : i.writesMemory = false)
    (hp : i.writesPc = true) : s.EffectOf i (s.transfer a (s.linkAndJump rd a)) := by
  obtain ⟨t1, t2⟩ := s.transfer_answers a (s.linkAndJump rd a)
  by_cases h : a.toNat % 4 = 0
  · exact ⟨_, t1 h, .jump rd a h hm hp⟩
  · exact ⟨_, t2 h, .trap _ _⟩

theorem State.effect_amo {s : State} {i : Instr} (rd rs1 rs2 : RegIdx) (op : Word → Word → Word)
    (hm : i.writesMemory = true) (hp : i.writesPc = false) : s.EffectOf i (s.amo i rd rs1 rs2 op) :=
  State.effect_whenAdmitted fun _ => State.effect_whenPasses ⟨_, rfl, .amo _ _ rd _ (by simp [bytes32]) hm hp⟩

theorem State.effect_csrAccess {s : State} {i : Instr} (rd : RegIdx) (c : CsrIdx) (writes reads : Bool)
    (new : Word → Word) (hi : i.isCsr = true) : s.EffectOf i (s.csrAccess i rd c writes reads new) := by
  unfold State.csrAccess
  split
  · exact s.effect_illegal i
  · split
    · exact s.effect_illegal i
    · cases writes
      · exact ⟨_, rfl, .csrRead rd _ _ _ hi⟩
      · exact ⟨_, rfl, .csrWritten rd c _ _ _ _ hi⟩

theorem State.effect_scW {s : State} (rd rs1 rs2 : RegIdx) (aq rl : BitVec 1) :
    s.EffectOf (.scW rd rs1 rs2 aq rl) (execScW rd rs1 rs2 aq rl s) :=
  State.effect_whenAdmitted fun _ => State.effect_whenPasses (by
    split
    · exact ⟨_, rfl, .condStored rd rs1 rs2 aq rl _ (by simp [bytes32]) rfl⟩
    · exact ⟨_, rfl, .condFailed rd rs1 rs2 aq rl rfl⟩)

/-! ### The effect of every instruction -/

theorem effect_add (s : State) (rd rs1 rs2 : RegIdx) : s.EffectOf (.add rd rs1 rs2) (execAdd rd rs1 rs2 s) :=
  State.effect_finishX _ _ rfl rfl
theorem effect_addi (s : State) (rd rs1 : RegIdx) (imm : BitVec 12) : s.EffectOf (.addi rd rs1 imm) (execAddi rd rs1 imm s) :=
  State.effect_finishX _ _ rfl rfl
theorem effect_and (s : State) (rd rs1 rs2 : RegIdx) : s.EffectOf (.and rd rs1 rs2) (execAnd rd rs1 rs2 s) :=
  State.effect_finishX _ _ rfl rfl
theorem effect_andi (s : State) (rd rs1 : RegIdx) (imm : BitVec 12) : s.EffectOf (.andi rd rs1 imm) (execAndi rd rs1 imm s) :=
  State.effect_finishX _ _ rfl rfl
theorem effect_auipc (s : State) (rd : RegIdx) (imm : BitVec 20) : s.EffectOf (.auipc rd imm) (execAuipc rd imm s) :=
  State.effect_finishX _ _ rfl rfl
theorem effect_lui (s : State) (rd : RegIdx) (imm : BitVec 20) : s.EffectOf (.lui rd imm) (execLui rd imm s) :=
  State.effect_finishX _ _ rfl rfl
theorem effect_or (s : State) (rd rs1 rs2 : RegIdx) : s.EffectOf (.or rd rs1 rs2) (execOr rd rs1 rs2 s) :=
  State.effect_finishX _ _ rfl rfl
theorem effect_ori (s : State) (rd rs1 : RegIdx) (imm : BitVec 12) : s.EffectOf (.ori rd rs1 imm) (execOri rd rs1 imm s) :=
  State.effect_finishX _ _ rfl rfl
theorem effect_sll (s : State) (rd rs1 rs2 : RegIdx) : s.EffectOf (.sll rd rs1 rs2) (execSll rd rs1 rs2 s) :=
  State.effect_finishX _ _ rfl rfl
theorem effect_slli (s : State) (rd rs1 : RegIdx) (shamt : BitVec 5) : s.EffectOf (.slli rd rs1 shamt) (execSlli rd rs1 shamt s) :=
  State.effect_finishX _ _ rfl rfl
theorem effect_slt (s : State) (rd rs1 rs2 : RegIdx) : s.EffectOf (.slt rd rs1 rs2) (execSlt rd rs1 rs2 s) :=
  State.effect_finishX _ _ rfl rfl
theorem effect_slti (s : State) (rd rs1 : RegIdx) (imm : BitVec 12) : s.EffectOf (.slti rd rs1 imm) (execSlti rd rs1 imm s) :=
  State.effect_finishX _ _ rfl rfl
theorem effect_sltiu (s : State) (rd rs1 : RegIdx) (imm : BitVec 12) : s.EffectOf (.sltiu rd rs1 imm) (execSltiu rd rs1 imm s) :=
  State.effect_finishX _ _ rfl rfl
theorem effect_sltu (s : State) (rd rs1 rs2 : RegIdx) : s.EffectOf (.sltu rd rs1 rs2) (execSltu rd rs1 rs2 s) :=
  State.effect_finishX _ _ rfl rfl
theorem effect_sra (s : State) (rd rs1 rs2 : RegIdx) : s.EffectOf (.sra rd rs1 rs2) (execSra rd rs1 rs2 s) :=
  State.effect_finishX _ _ rfl rfl
theorem effect_srai (s : State) (rd rs1 : RegIdx) (shamt : BitVec 5) : s.EffectOf (.srai rd rs1 shamt) (execSrai rd rs1 shamt s) :=
  State.effect_finishX _ _ rfl rfl
theorem effect_srl (s : State) (rd rs1 rs2 : RegIdx) : s.EffectOf (.srl rd rs1 rs2) (execSrl rd rs1 rs2 s) :=
  State.effect_finishX _ _ rfl rfl
theorem effect_srli (s : State) (rd rs1 : RegIdx) (shamt : BitVec 5) : s.EffectOf (.srli rd rs1 shamt) (execSrli rd rs1 shamt s) :=
  State.effect_finishX _ _ rfl rfl
theorem effect_sub (s : State) (rd rs1 rs2 : RegIdx) : s.EffectOf (.sub rd rs1 rs2) (execSub rd rs1 rs2 s) :=
  State.effect_finishX _ _ rfl rfl
theorem effect_xor (s : State) (rd rs1 rs2 : RegIdx) : s.EffectOf (.xor rd rs1 rs2) (execXor rd rs1 rs2 s) :=
  State.effect_finishX _ _ rfl rfl
theorem effect_xori (s : State) (rd rs1 : RegIdx) (imm : BitVec 12) : s.EffectOf (.xori rd rs1 imm) (execXori rd rs1 imm s) :=
  State.effect_finishX _ _ rfl rfl
theorem effect_beq (s : State) (rs1 rs2 : RegIdx) (off : BitVec 13) : s.EffectOf (.beq rs1 rs2 off) (execBeq rs1 rs2 off s) :=
  State.effect_branch _ _ rfl rfl
theorem effect_bge (s : State) (rs1 rs2 : RegIdx) (off : BitVec 13) : s.EffectOf (.bge rs1 rs2 off) (execBge rs1 rs2 off s) :=
  State.effect_branch _ _ rfl rfl
theorem effect_bgeu (s : State) (rs1 rs2 : RegIdx) (off : BitVec 13) : s.EffectOf (.bgeu rs1 rs2 off) (execBgeu rs1 rs2 off s) :=
  State.effect_branch _ _ rfl rfl
theorem effect_blt (s : State) (rs1 rs2 : RegIdx) (off : BitVec 13) : s.EffectOf (.blt rs1 rs2 off) (execBlt rs1 rs2 off s) :=
  State.effect_branch _ _ rfl rfl
theorem effect_bltu (s : State) (rs1 rs2 : RegIdx) (off : BitVec 13) : s.EffectOf (.bltu rs1 rs2 off) (execBltu rs1 rs2 off s) :=
  State.effect_branch _ _ rfl rfl
theorem effect_bne (s : State) (rs1 rs2 : RegIdx) (off : BitVec 13) : s.EffectOf (.bne rs1 rs2 off) (execBne rs1 rs2 off s) :=
  State.effect_branch _ _ rfl rfl
theorem effect_jal (s : State) (rd : RegIdx) (off : BitVec 21) : s.EffectOf (.jal rd off) (execJal rd off s) :=
  State.effect_jump _ _ rfl rfl
theorem effect_jalr (s : State) (rd rs1 : RegIdx) (imm : BitVec 12) : s.EffectOf (.jalr rd rs1 imm) (execJalr rd rs1 imm s) :=
  State.effect_jump _ _ rfl rfl
theorem effect_lb (s : State) (rd rs1 : RegIdx) (imm : BitVec 12) : s.EffectOf (.lb rd rs1 imm) (execLb rd rs1 imm s) :=
  State.effect_whenPasses (State.effect_finishX _ _ rfl rfl)
theorem effect_lbu (s : State) (rd rs1 : RegIdx) (imm : BitVec 12) : s.EffectOf (.lbu rd rs1 imm) (execLbu rd rs1 imm s) :=
  State.effect_whenPasses (State.effect_finishX _ _ rfl rfl)
theorem effect_lh (s : State) (rd rs1 : RegIdx) (imm : BitVec 12) : s.EffectOf (.lh rd rs1 imm) (execLh rd rs1 imm s) :=
  State.effect_whenPasses (State.effect_finishX _ _ rfl rfl)
theorem effect_lhu (s : State) (rd rs1 : RegIdx) (imm : BitVec 12) : s.EffectOf (.lhu rd rs1 imm) (execLhu rd rs1 imm s) :=
  State.effect_whenPasses (State.effect_finishX _ _ rfl rfl)
theorem effect_lw (s : State) (rd rs1 : RegIdx) (imm : BitVec 12) : s.EffectOf (.lw rd rs1 imm) (execLw rd rs1 imm s) :=
  State.effect_whenPasses (State.effect_finishX _ _ rfl rfl)
theorem effect_sb (s : State) (rs1 rs2 : RegIdx) (imm : BitVec 12) : s.EffectOf (.sb rs1 rs2 imm) (execSb rs1 rs2 imm s) :=
  State.effect_storeAt _ _ _ (Nat.le_of_ble_eq_true rfl) rfl rfl
theorem effect_sh (s : State) (rs1 rs2 : RegIdx) (imm : BitVec 12) : s.EffectOf (.sh rs1 rs2 imm) (execSh rs1 rs2 imm s) :=
  State.effect_storeAt _ _ _ (Nat.le_of_ble_eq_true rfl) rfl rfl
theorem effect_sw (s : State) (rs1 rs2 : RegIdx) (imm : BitVec 12) : s.EffectOf (.sw rs1 rs2 imm) (execSw rs1 rs2 imm s) :=
  State.effect_storeAt _ _ _ (Nat.le_of_ble_eq_true rfl) rfl rfl
theorem effect_csrrc (s : State) (rd rs1 : RegIdx) (csr : CsrIdx) : s.EffectOf (.csrrc rd rs1 csr) (execCsrrc rd rs1 csr s) :=
  State.effect_csrAccess _ _ _ _ _ rfl
theorem effect_csrrci (s : State) (rd : RegIdx) (uimm : BitVec 5) (csr : CsrIdx) : s.EffectOf (.csrrci rd uimm csr) (execCsrrci rd uimm csr s) :=
  State.effect_csrAccess _ _ _ _ _ rfl
theorem effect_csrrs (s : State) (rd rs1 : RegIdx) (csr : CsrIdx) : s.EffectOf (.csrrs rd rs1 csr) (execCsrrs rd rs1 csr s) :=
  State.effect_csrAccess _ _ _ _ _ rfl
theorem effect_csrrsi (s : State) (rd : RegIdx) (uimm : BitVec 5) (csr : CsrIdx) : s.EffectOf (.csrrsi rd uimm csr) (execCsrrsi rd uimm csr s) :=
  State.effect_csrAccess _ _ _ _ _ rfl
theorem effect_csrrw (s : State) (rd rs1 : RegIdx) (csr : CsrIdx) : s.EffectOf (.csrrw rd rs1 csr) (execCsrrw rd rs1 csr s) :=
  State.effect_csrAccess _ _ _ _ _ rfl
theorem effect_csrrwi (s : State) (rd : RegIdx) (uimm : BitVec 5) (csr : CsrIdx) : s.EffectOf (.csrrwi rd uimm csr) (execCsrrwi rd uimm csr s) :=
  State.effect_csrAccess _ _ _ _ _ rfl
theorem effect_ebreak (s : State) : s.EffectOf (.ebreak) (execEbreak s) :=
  s.effect_raise _ _ _
theorem effect_ecall (s : State) : s.EffectOf (.ecall) (execEcall s) :=
  s.effect_raise _ _ _
theorem effect_fence (s : State) (rd rs1 : RegIdx) (imm : BitVec 12) : s.EffectOf (.fence rd rs1 imm) (execFence s) :=
  ⟨_, rfl, .nothing rfl⟩
theorem effect_fenceI (s : State) (rd rs1 : RegIdx) (imm : BitVec 12) : s.EffectOf (.fenceI rd rs1 imm) (execFenceI s) :=
  ⟨_, rfl, .fenceI _ _ _ rfl⟩
theorem effect_mul (s : State) (rd rs1 rs2 : RegIdx) : s.EffectOf (.mul rd rs1 rs2) (execMul rd rs1 rs2 s) :=
  State.effect_whenAdmitted fun _ => State.effect_finishX _ _ rfl rfl
theorem effect_mulh (s : State) (rd rs1 rs2 : RegIdx) : s.EffectOf (.mulh rd rs1 rs2) (execMulh rd rs1 rs2 s) :=
  State.effect_whenAdmitted fun _ => State.effect_finishX _ _ rfl rfl
theorem effect_mulhsu (s : State) (rd rs1 rs2 : RegIdx) : s.EffectOf (.mulhsu rd rs1 rs2) (execMulhsu rd rs1 rs2 s) :=
  State.effect_whenAdmitted fun _ => State.effect_finishX _ _ rfl rfl
theorem effect_mulhu (s : State) (rd rs1 rs2 : RegIdx) : s.EffectOf (.mulhu rd rs1 rs2) (execMulhu rd rs1 rs2 s) :=
  State.effect_whenAdmitted fun _ => State.effect_finishX _ _ rfl rfl
theorem effect_div (s : State) (rd rs1 rs2 : RegIdx) : s.EffectOf (.div rd rs1 rs2) (execDiv rd rs1 rs2 s) :=
  State.effect_whenAdmitted fun _ => State.effect_finishX _ _ rfl rfl
theorem effect_divu (s : State) (rd rs1 rs2 : RegIdx) : s.EffectOf (.divu rd rs1 rs2) (execDivu rd rs1 rs2 s) :=
  State.effect_whenAdmitted fun _ => State.effect_finishX _ _ rfl rfl
theorem effect_rem (s : State) (rd rs1 rs2 : RegIdx) : s.EffectOf (.rem rd rs1 rs2) (execRem rd rs1 rs2 s) :=
  State.effect_whenAdmitted fun _ => State.effect_finishX _ _ rfl rfl
theorem effect_remu (s : State) (rd rs1 rs2 : RegIdx) : s.EffectOf (.remu rd rs1 rs2) (execRemu rd rs1 rs2 s) :=
  State.effect_whenAdmitted fun _ => State.effect_finishX _ _ rfl rfl
theorem effect_flw (s : State) (rd rs1 : RegIdx) (imm : BitVec 12) : s.EffectOf (.flw rd rs1 imm) (execFlw rd rs1 imm s) :=
  State.effect_whenAdmitted fun _ => State.effect_whenPasses (State.effect_writeS _ _ rfl rfl)
theorem effect_fld (s : State) (rd rs1 : RegIdx) (imm : BitVec 12) : s.EffectOf (.fld rd rs1 imm) (execFld rd rs1 imm s) :=
  State.effect_whenAdmitted fun h => State.effect_whenPasses (State.effect_writeD _ _ h rfl rfl)
theorem effect_fsw (s : State) (rs1 rs2 : RegIdx) (imm : BitVec 12) : s.EffectOf (.fsw rs1 rs2 imm) (execFsw rs1 rs2 imm s) :=
  State.effect_whenAdmitted fun _ => State.effect_storeAt _ _ _ (Nat.le_of_ble_eq_true rfl) rfl rfl
theorem effect_fsd (s : State) (rs1 rs2 : RegIdx) (imm : BitVec 12) : s.EffectOf (.fsd rs1 rs2 imm) (execFsd rs1 rs2 imm s) :=
  State.effect_whenAdmitted fun _ => State.effect_storeAt _ _ _ (Nat.le_of_ble_eq_true rfl) rfl rfl
theorem effect_faddS (s : State) (rd rs1 rs2 : RegIdx) (rm : BitVec 3) : s.EffectOf (.faddS rd rs1 rs2 rm) (execFaddS rd rs1 rs2 rm s) :=
  State.effect_rounding fun _ _ => State.effect_finishS _ _ rfl rfl
theorem effect_faddD (s : State) (rd rs1 rs2 : RegIdx) (rm : BitVec 3) : s.EffectOf (.faddD rd rs1 rs2 rm) (execFaddD rd rs1 rs2 rm s) :=
  State.effect_rounding fun _ h => State.effect_finishD _ _ h rfl rfl
theorem effect_fsubS (s : State) (rd rs1 rs2 : RegIdx) (rm : BitVec 3) : s.EffectOf (.fsubS rd rs1 rs2 rm) (execFsubS rd rs1 rs2 rm s) :=
  State.effect_rounding fun _ _ => State.effect_finishS _ _ rfl rfl
theorem effect_fsubD (s : State) (rd rs1 rs2 : RegIdx) (rm : BitVec 3) : s.EffectOf (.fsubD rd rs1 rs2 rm) (execFsubD rd rs1 rs2 rm s) :=
  State.effect_rounding fun _ h => State.effect_finishD _ _ h rfl rfl
theorem effect_fmulS (s : State) (rd rs1 rs2 : RegIdx) (rm : BitVec 3) : s.EffectOf (.fmulS rd rs1 rs2 rm) (execFmulS rd rs1 rs2 rm s) :=
  State.effect_rounding fun _ _ => State.effect_finishS _ _ rfl rfl
theorem effect_fmulD (s : State) (rd rs1 rs2 : RegIdx) (rm : BitVec 3) : s.EffectOf (.fmulD rd rs1 rs2 rm) (execFmulD rd rs1 rs2 rm s) :=
  State.effect_rounding fun _ h => State.effect_finishD _ _ h rfl rfl
theorem effect_fdivS (s : State) (rd rs1 rs2 : RegIdx) (rm : BitVec 3) : s.EffectOf (.fdivS rd rs1 rs2 rm) (execFdivS rd rs1 rs2 rm s) :=
  State.effect_rounding fun _ _ => State.effect_finishS _ _ rfl rfl
theorem effect_fdivD (s : State) (rd rs1 rs2 : RegIdx) (rm : BitVec 3) : s.EffectOf (.fdivD rd rs1 rs2 rm) (execFdivD rd rs1 rs2 rm s) :=
  State.effect_rounding fun _ h => State.effect_finishD _ _ h rfl rfl
theorem effect_fsqrtS (s : State) (rd rs1 : RegIdx) (rm : BitVec 3) : s.EffectOf (.fsqrtS rd rs1 rm) (execFsqrtS rd rs1 rm s) :=
  State.effect_rounding fun _ _ => State.effect_finishS _ _ rfl rfl
theorem effect_fsqrtD (s : State) (rd rs1 : RegIdx) (rm : BitVec 3) : s.EffectOf (.fsqrtD rd rs1 rm) (execFsqrtD rd rs1 rm s) :=
  State.effect_rounding fun _ h => State.effect_finishD _ _ h rfl rfl
theorem effect_fmaddS (s : State) (rd rs1 rs2 rs3 : RegIdx) (rm : BitVec 3) : s.EffectOf (.fmaddS rd rs1 rs2 rs3 rm) (execFmaddS rd rs1 rs2 rs3 rm s) :=
  State.effect_rounding fun _ _ => State.effect_finishS _ _ rfl rfl
theorem effect_fmaddD (s : State) (rd rs1 rs2 rs3 : RegIdx) (rm : BitVec 3) : s.EffectOf (.fmaddD rd rs1 rs2 rs3 rm) (execFmaddD rd rs1 rs2 rs3 rm s) :=
  State.effect_rounding fun _ h => State.effect_finishD _ _ h rfl rfl
theorem effect_fmsubS (s : State) (rd rs1 rs2 rs3 : RegIdx) (rm : BitVec 3) : s.EffectOf (.fmsubS rd rs1 rs2 rs3 rm) (execFmsubS rd rs1 rs2 rs3 rm s) :=
  State.effect_rounding fun _ _ => State.effect_finishS _ _ rfl rfl
theorem effect_fmsubD (s : State) (rd rs1 rs2 rs3 : RegIdx) (rm : BitVec 3) : s.EffectOf (.fmsubD rd rs1 rs2 rs3 rm) (execFmsubD rd rs1 rs2 rs3 rm s) :=
  State.effect_rounding fun _ h => State.effect_finishD _ _ h rfl rfl
theorem effect_fnmsubS (s : State) (rd rs1 rs2 rs3 : RegIdx) (rm : BitVec 3) : s.EffectOf (.fnmsubS rd rs1 rs2 rs3 rm) (execFnmsubS rd rs1 rs2 rs3 rm s) :=
  State.effect_rounding fun _ _ => State.effect_finishS _ _ rfl rfl
theorem effect_fnmsubD (s : State) (rd rs1 rs2 rs3 : RegIdx) (rm : BitVec 3) : s.EffectOf (.fnmsubD rd rs1 rs2 rs3 rm) (execFnmsubD rd rs1 rs2 rs3 rm s) :=
  State.effect_rounding fun _ h => State.effect_finishD _ _ h rfl rfl
theorem effect_fnmaddS (s : State) (rd rs1 rs2 rs3 : RegIdx) (rm : BitVec 3) : s.EffectOf (.fnmaddS rd rs1 rs2 rs3 rm) (execFnmaddS rd rs1 rs2 rs3 rm s) :=
  State.effect_rounding fun _ _ => State.effect_finishS _ _ rfl rfl
theorem effect_fnmaddD (s : State) (rd rs1 rs2 rs3 : RegIdx) (rm : BitVec 3) : s.EffectOf (.fnmaddD rd rs1 rs2 rs3 rm) (execFnmaddD rd rs1 rs2 rs3 rm s) :=
  State.effect_rounding fun _ h => State.effect_finishD _ _ h rfl rfl
theorem effect_fsgnjS (s : State) (rd rs1 rs2 : RegIdx) : s.EffectOf (.fsgnjS rd rs1 rs2) (execFsgnjS rd rs1 rs2 s) :=
  State.effect_whenAdmitted fun _ => State.effect_writeS _ _ rfl rfl
theorem effect_fsgnjD (s : State) (rd rs1 rs2 : RegIdx) : s.EffectOf (.fsgnjD rd rs1 rs2) (execFsgnjD rd rs1 rs2 s) :=
  State.effect_whenAdmitted fun h => State.effect_writeD _ _ h rfl rfl
theorem effect_fsgnjnS (s : State) (rd rs1 rs2 : RegIdx) : s.EffectOf (.fsgnjnS rd rs1 rs2) (execFsgnjnS rd rs1 rs2 s) :=
  State.effect_whenAdmitted fun _ => State.effect_writeS _ _ rfl rfl
theorem effect_fsgnjnD (s : State) (rd rs1 rs2 : RegIdx) : s.EffectOf (.fsgnjnD rd rs1 rs2) (execFsgnjnD rd rs1 rs2 s) :=
  State.effect_whenAdmitted fun h => State.effect_writeD _ _ h rfl rfl
theorem effect_fsgnjxS (s : State) (rd rs1 rs2 : RegIdx) : s.EffectOf (.fsgnjxS rd rs1 rs2) (execFsgnjxS rd rs1 rs2 s) :=
  State.effect_whenAdmitted fun _ => State.effect_writeS _ _ rfl rfl
theorem effect_fsgnjxD (s : State) (rd rs1 rs2 : RegIdx) : s.EffectOf (.fsgnjxD rd rs1 rs2) (execFsgnjxD rd rs1 rs2 s) :=
  State.effect_whenAdmitted fun h => State.effect_writeD _ _ h rfl rfl
theorem effect_fminS (s : State) (rd rs1 rs2 : RegIdx) : s.EffectOf (.fminS rd rs1 rs2) (execFminS rd rs1 rs2 s) :=
  State.effect_whenAdmitted fun _ => State.effect_finishS _ _ rfl rfl
theorem effect_fminD (s : State) (rd rs1 rs2 : RegIdx) : s.EffectOf (.fminD rd rs1 rs2) (execFminD rd rs1 rs2 s) :=
  State.effect_whenAdmitted fun h => State.effect_finishD _ _ h rfl rfl
theorem effect_fmaxS (s : State) (rd rs1 rs2 : RegIdx) : s.EffectOf (.fmaxS rd rs1 rs2) (execFmaxS rd rs1 rs2 s) :=
  State.effect_whenAdmitted fun _ => State.effect_finishS _ _ rfl rfl
theorem effect_fmaxD (s : State) (rd rs1 rs2 : RegIdx) : s.EffectOf (.fmaxD rd rs1 rs2) (execFmaxD rd rs1 rs2 s) :=
  State.effect_whenAdmitted fun h => State.effect_finishD _ _ h rfl rfl
theorem effect_feqS (s : State) (rd rs1 rs2 : RegIdx) : s.EffectOf (.feqS rd rs1 rs2) (execFeqS rd rs1 rs2 s) :=
  State.effect_whenAdmitted fun _ => State.effect_finishFlagsX _ _ rfl rfl
theorem effect_feqD (s : State) (rd rs1 rs2 : RegIdx) : s.EffectOf (.feqD rd rs1 rs2) (execFeqD rd rs1 rs2 s) :=
  State.effect_whenAdmitted fun _ => State.effect_finishFlagsX _ _ rfl rfl
theorem effect_fltS (s : State) (rd rs1 rs2 : RegIdx) : s.EffectOf (.fltS rd rs1 rs2) (execFltS rd rs1 rs2 s) :=
  State.effect_whenAdmitted fun _ => State.effect_finishFlagsX _ _ rfl rfl
theorem effect_fltD (s : State) (rd rs1 rs2 : RegIdx) : s.EffectOf (.fltD rd rs1 rs2) (execFltD rd rs1 rs2 s) :=
  State.effect_whenAdmitted fun _ => State.effect_finishFlagsX _ _ rfl rfl
theorem effect_fleS (s : State) (rd rs1 rs2 : RegIdx) : s.EffectOf (.fleS rd rs1 rs2) (execFleS rd rs1 rs2 s) :=
  State.effect_whenAdmitted fun _ => State.effect_finishFlagsX _ _ rfl rfl
theorem effect_fleD (s : State) (rd rs1 rs2 : RegIdx) : s.EffectOf (.fleD rd rs1 rs2) (execFleD rd rs1 rs2 s) :=
  State.effect_whenAdmitted fun _ => State.effect_finishFlagsX _ _ rfl rfl
theorem effect_fclassS (s : State) (rd rs1 : RegIdx) : s.EffectOf (.fclassS rd rs1) (execFclassS rd rs1 s) :=
  State.effect_whenAdmitted fun _ => State.effect_finishX _ _ rfl rfl
theorem effect_fclassD (s : State) (rd rs1 : RegIdx) : s.EffectOf (.fclassD rd rs1) (execFclassD rd rs1 s) :=
  State.effect_whenAdmitted fun _ => State.effect_finishX _ _ rfl rfl
theorem effect_fmvSX (s : State) (rd rs1 : RegIdx) : s.EffectOf (.fmvSX rd rs1) (execFmvSX rd rs1 s) :=
  State.effect_whenAdmitted fun _ => State.effect_writeS _ _ rfl rfl
theorem effect_fmvDX (s : State) (rd rs1 : RegIdx) : s.EffectOf (.fmvDX rd rs1) (execFmvDX rd rs1 s) :=
  s.effect_illegal _
theorem effect_fmvXS (s : State) (rd rs1 : RegIdx) : s.EffectOf (.fmvXS rd rs1) (execFmvXS rd rs1 s) :=
  State.effect_whenAdmitted fun _ => State.effect_finishX _ _ rfl rfl
theorem effect_fmvXD (s : State) (rd rs1 : RegIdx) : s.EffectOf (.fmvXD rd rs1) (execFmvXD rd rs1 s) :=
  s.effect_illegal _
theorem effect_fcvtDS (s : State) (rd rs1 : RegIdx) (rm : BitVec 3) : s.EffectOf (.fcvtDS rd rs1 rm) (execFcvtDS rd rs1 rm s) :=
  State.effect_rounding fun _ h => State.effect_finishD _ _ h rfl rfl
theorem effect_fcvtSD (s : State) (rd rs1 : RegIdx) (rm : BitVec 3) : s.EffectOf (.fcvtSD rd rs1 rm) (execFcvtSD rd rs1 rm s) :=
  State.effect_rounding fun _ _ => State.effect_finishS _ _ rfl rfl
theorem effect_fcvtSW (s : State) (rd rs1 : RegIdx) (rm : BitVec 3) : s.EffectOf (.fcvtSW rd rs1 rm) (execFcvtSW rd rs1 rm s) :=
  State.effect_rounding fun _ _ => State.effect_finishS _ _ rfl rfl
theorem effect_fcvtDW (s : State) (rd rs1 : RegIdx) (rm : BitVec 3) : s.EffectOf (.fcvtDW rd rs1 rm) (execFcvtDW rd rs1 rm s) :=
  State.effect_rounding fun _ h => State.effect_finishD _ _ h rfl rfl
theorem effect_fcvtSL (s : State) (rd rs1 : RegIdx) (rm : BitVec 3) : s.EffectOf (.fcvtSL rd rs1 rm) (execFcvtSL rd rs1 rm s) :=
  s.effect_illegal _
theorem effect_fcvtDL (s : State) (rd rs1 : RegIdx) (rm : BitVec 3) : s.EffectOf (.fcvtDL rd rs1 rm) (execFcvtDL rd rs1 rm s) :=
  s.effect_illegal _
theorem effect_fcvtSWu (s : State) (rd rs1 : RegIdx) (rm : BitVec 3) : s.EffectOf (.fcvtSWu rd rs1 rm) (execFcvtSWu rd rs1 rm s) :=
  State.effect_rounding fun _ _ => State.effect_finishS _ _ rfl rfl
theorem effect_fcvtDWu (s : State) (rd rs1 : RegIdx) (rm : BitVec 3) : s.EffectOf (.fcvtDWu rd rs1 rm) (execFcvtDWu rd rs1 rm s) :=
  State.effect_rounding fun _ h => State.effect_finishD _ _ h rfl rfl
theorem effect_fcvtSLu (s : State) (rd rs1 : RegIdx) (rm : BitVec 3) : s.EffectOf (.fcvtSLu rd rs1 rm) (execFcvtSLu rd rs1 rm s) :=
  s.effect_illegal _
theorem effect_fcvtDLu (s : State) (rd rs1 : RegIdx) (rm : BitVec 3) : s.EffectOf (.fcvtDLu rd rs1 rm) (execFcvtDLu rd rs1 rm s) :=
  s.effect_illegal _
theorem effect_fcvtWS (s : State) (rd rs1 : RegIdx) (rm : BitVec 3) : s.EffectOf (.fcvtWS rd rs1 rm) (execFcvtWS rd rs1 rm s) :=
  State.effect_rounding fun _ _ => State.effect_finishFlagsX _ _ rfl rfl
theorem effect_fcvtWD (s : State) (rd rs1 : RegIdx) (rm : BitVec 3) : s.EffectOf (.fcvtWD rd rs1 rm) (execFcvtWD rd rs1 rm s) :=
  State.effect_rounding fun _ _ => State.effect_finishFlagsX _ _ rfl rfl
theorem effect_fcvtLS (s : State) (rd rs1 : RegIdx) (rm : BitVec 3) : s.EffectOf (.fcvtLS rd rs1 rm) (execFcvtLS rd rs1 rm s) :=
  s.effect_illegal _
theorem effect_fcvtLD (s : State) (rd rs1 : RegIdx) (rm : BitVec 3) : s.EffectOf (.fcvtLD rd rs1 rm) (execFcvtLD rd rs1 rm s) :=
  s.effect_illegal _
theorem effect_fcvtWuS (s : State) (rd rs1 : RegIdx) (rm : BitVec 3) : s.EffectOf (.fcvtWuS rd rs1 rm) (execFcvtWuS rd rs1 rm s) :=
  State.effect_rounding fun _ _ => State.effect_finishFlagsX _ _ rfl rfl
theorem effect_fcvtWuD (s : State) (rd rs1 : RegIdx) (rm : BitVec 3) : s.EffectOf (.fcvtWuD rd rs1 rm) (execFcvtWuD rd rs1 rm s) :=
  State.effect_rounding fun _ _ => State.effect_finishFlagsX _ _ rfl rfl
theorem effect_fcvtLuS (s : State) (rd rs1 : RegIdx) (rm : BitVec 3) : s.EffectOf (.fcvtLuS rd rs1 rm) (execFcvtLuS rd rs1 rm s) :=
  s.effect_illegal _
theorem effect_fcvtLuD (s : State) (rd rs1 : RegIdx) (rm : BitVec 3) : s.EffectOf (.fcvtLuD rd rs1 rm) (execFcvtLuD rd rs1 rm s) :=
  s.effect_illegal _
theorem effect_amoaddW (s : State) (rd rs1 rs2 : RegIdx) (aq rl : BitVec 1) : s.EffectOf (.amoaddW rd rs1 rs2 aq rl) (execAmoaddW rd rs1 rs2 aq rl s) :=
  State.effect_amo _ _ _ _ rfl rfl
theorem effect_amoaddD (s : State) (rd rs1 rs2 : RegIdx) (aq rl : BitVec 1) : s.EffectOf (.amoaddD rd rs1 rs2 aq rl) (execAmoaddD rd rs1 rs2 aq rl s) :=
  s.effect_illegal _
theorem effect_amoandW (s : State) (rd rs1 rs2 : RegIdx) (aq rl : BitVec 1) : s.EffectOf (.amoandW rd rs1 rs2 aq rl) (execAmoandW rd rs1 rs2 aq rl s) :=
  State.effect_amo _ _ _ _ rfl rfl
theorem effect_amoandD (s : State) (rd rs1 rs2 : RegIdx) (aq rl : BitVec 1) : s.EffectOf (.amoandD rd rs1 rs2 aq rl) (execAmoandD rd rs1 rs2 aq rl s) :=
  s.effect_illegal _
theorem effect_amomaxW (s : State) (rd rs1 rs2 : RegIdx) (aq rl : BitVec 1) : s.EffectOf (.amomaxW rd rs1 rs2 aq rl) (execAmomaxW rd rs1 rs2 aq rl s) :=
  State.effect_amo _ _ _ _ rfl rfl
theorem effect_amomaxD (s : State) (rd rs1 rs2 : RegIdx) (aq rl : BitVec 1) : s.EffectOf (.amomaxD rd rs1 rs2 aq rl) (execAmomaxD rd rs1 rs2 aq rl s) :=
  s.effect_illegal _
theorem effect_amomaxuW (s : State) (rd rs1 rs2 : RegIdx) (aq rl : BitVec 1) : s.EffectOf (.amomaxuW rd rs1 rs2 aq rl) (execAmomaxuW rd rs1 rs2 aq rl s) :=
  State.effect_amo _ _ _ _ rfl rfl
theorem effect_amomaxuD (s : State) (rd rs1 rs2 : RegIdx) (aq rl : BitVec 1) : s.EffectOf (.amomaxuD rd rs1 rs2 aq rl) (execAmomaxuD rd rs1 rs2 aq rl s) :=
  s.effect_illegal _
theorem effect_amominW (s : State) (rd rs1 rs2 : RegIdx) (aq rl : BitVec 1) : s.EffectOf (.amominW rd rs1 rs2 aq rl) (execAmominW rd rs1 rs2 aq rl s) :=
  State.effect_amo _ _ _ _ rfl rfl
theorem effect_amominD (s : State) (rd rs1 rs2 : RegIdx) (aq rl : BitVec 1) : s.EffectOf (.amominD rd rs1 rs2 aq rl) (execAmominD rd rs1 rs2 aq rl s) :=
  s.effect_illegal _
theorem effect_amominuW (s : State) (rd rs1 rs2 : RegIdx) (aq rl : BitVec 1) : s.EffectOf (.amominuW rd rs1 rs2 aq rl) (execAmominuW rd rs1 rs2 aq rl s) :=
  State.effect_amo _ _ _ _ rfl rfl
theorem effect_amominuD (s : State) (rd rs1 rs2 : RegIdx) (aq rl : BitVec 1) : s.EffectOf (.amominuD rd rs1 rs2 aq rl) (execAmominuD rd rs1 rs2 aq rl s) :=
  s.effect_illegal _
theorem effect_amoorW (s : State) (rd rs1 rs2 : RegIdx) (aq rl : BitVec 1) : s.EffectOf (.amoorW rd rs1 rs2 aq rl) (execAmoorW rd rs1 rs2 aq rl s) :=
  State.effect_amo _ _ _ _ rfl rfl
theorem effect_amoorD (s : State) (rd rs1 rs2 : RegIdx) (aq rl : BitVec 1) : s.EffectOf (.amoorD rd rs1 rs2 aq rl) (execAmoorD rd rs1 rs2 aq rl s) :=
  s.effect_illegal _
theorem effect_amoswapW (s : State) (rd rs1 rs2 : RegIdx) (aq rl : BitVec 1) : s.EffectOf (.amoswapW rd rs1 rs2 aq rl) (execAmoswapW rd rs1 rs2 aq rl s) :=
  State.effect_amo _ _ _ _ rfl rfl
theorem effect_amoswapD (s : State) (rd rs1 rs2 : RegIdx) (aq rl : BitVec 1) : s.EffectOf (.amoswapD rd rs1 rs2 aq rl) (execAmoswapD rd rs1 rs2 aq rl s) :=
  s.effect_illegal _
theorem effect_amoxorW (s : State) (rd rs1 rs2 : RegIdx) (aq rl : BitVec 1) : s.EffectOf (.amoxorW rd rs1 rs2 aq rl) (execAmoxorW rd rs1 rs2 aq rl s) :=
  State.effect_amo _ _ _ _ rfl rfl
theorem effect_amoxorD (s : State) (rd rs1 rs2 : RegIdx) (aq rl : BitVec 1) : s.EffectOf (.amoxorD rd rs1 rs2 aq rl) (execAmoxorD rd rs1 rs2 aq rl s) :=
  s.effect_illegal _
theorem effect_lrW (s : State) (rd rs1 : RegIdx) (aq rl : BitVec 1) : s.EffectOf (.lrW rd rs1 aq rl) (execLrW rd rs1 aq rl s) :=
  State.effect_whenAdmitted fun _ => State.effect_whenPasses ⟨_, rfl, .reserve _ _ _ _ _ rfl⟩
theorem effect_lrD (s : State) (rd rs1 : RegIdx) (aq rl : BitVec 1) : s.EffectOf (.lrD rd rs1 aq rl) (execLrD rd rs1 aq rl s) :=
  s.effect_illegal _
theorem effect_scD (s : State) (rd rs1 rs2 : RegIdx) (aq rl : BitVec 1) : s.EffectOf (.scD rd rs1 rs2 aq rl) (execScD rd rs1 rs2 aq rl s) :=
  s.effect_illegal _

/-- Every instruction has a next state, and it is one of the effects. -/
theorem exec_effect (i : Instr) (s : State) : s.EffectOf i (exec i s) := by
  cases i with
  | add rd rs1 rs2 => exact effect_add s rd rs1 rs2
  | addi rd rs1 imm => exact effect_addi s rd rs1 imm
  | and rd rs1 rs2 => exact effect_and s rd rs1 rs2
  | andi rd rs1 imm => exact effect_andi s rd rs1 imm
  | auipc rd imm => exact effect_auipc s rd imm
  | lui rd imm => exact effect_lui s rd imm
  | or rd rs1 rs2 => exact effect_or s rd rs1 rs2
  | ori rd rs1 imm => exact effect_ori s rd rs1 imm
  | sll rd rs1 rs2 => exact effect_sll s rd rs1 rs2
  | slli rd rs1 shamt => exact effect_slli s rd rs1 shamt
  | slt rd rs1 rs2 => exact effect_slt s rd rs1 rs2
  | slti rd rs1 imm => exact effect_slti s rd rs1 imm
  | sltiu rd rs1 imm => exact effect_sltiu s rd rs1 imm
  | sltu rd rs1 rs2 => exact effect_sltu s rd rs1 rs2
  | sra rd rs1 rs2 => exact effect_sra s rd rs1 rs2
  | srai rd rs1 shamt => exact effect_srai s rd rs1 shamt
  | srl rd rs1 rs2 => exact effect_srl s rd rs1 rs2
  | srli rd rs1 shamt => exact effect_srli s rd rs1 shamt
  | sub rd rs1 rs2 => exact effect_sub s rd rs1 rs2
  | xor rd rs1 rs2 => exact effect_xor s rd rs1 rs2
  | xori rd rs1 imm => exact effect_xori s rd rs1 imm
  | beq rs1 rs2 off => exact effect_beq s rs1 rs2 off
  | bge rs1 rs2 off => exact effect_bge s rs1 rs2 off
  | bgeu rs1 rs2 off => exact effect_bgeu s rs1 rs2 off
  | blt rs1 rs2 off => exact effect_blt s rs1 rs2 off
  | bltu rs1 rs2 off => exact effect_bltu s rs1 rs2 off
  | bne rs1 rs2 off => exact effect_bne s rs1 rs2 off
  | jal rd off => exact effect_jal s rd off
  | jalr rd rs1 imm => exact effect_jalr s rd rs1 imm
  | lb rd rs1 imm => exact effect_lb s rd rs1 imm
  | lbu rd rs1 imm => exact effect_lbu s rd rs1 imm
  | lh rd rs1 imm => exact effect_lh s rd rs1 imm
  | lhu rd rs1 imm => exact effect_lhu s rd rs1 imm
  | lw rd rs1 imm => exact effect_lw s rd rs1 imm
  | sb rs1 rs2 imm => exact effect_sb s rs1 rs2 imm
  | sh rs1 rs2 imm => exact effect_sh s rs1 rs2 imm
  | sw rs1 rs2 imm => exact effect_sw s rs1 rs2 imm
  | csrrc rd rs1 csr => exact effect_csrrc s rd rs1 csr
  | csrrci rd uimm csr => exact effect_csrrci s rd uimm csr
  | csrrs rd rs1 csr => exact effect_csrrs s rd rs1 csr
  | csrrsi rd uimm csr => exact effect_csrrsi s rd uimm csr
  | csrrw rd rs1 csr => exact effect_csrrw s rd rs1 csr
  | csrrwi rd uimm csr => exact effect_csrrwi s rd uimm csr
  | ebreak => exact effect_ebreak s
  | ecall => exact effect_ecall s
  | fence rd rs1 imm => exact effect_fence s rd rs1 imm
  | fenceI rd rs1 imm => exact effect_fenceI s rd rs1 imm
  | mul rd rs1 rs2 => exact effect_mul s rd rs1 rs2
  | mulh rd rs1 rs2 => exact effect_mulh s rd rs1 rs2
  | mulhsu rd rs1 rs2 => exact effect_mulhsu s rd rs1 rs2
  | mulhu rd rs1 rs2 => exact effect_mulhu s rd rs1 rs2
  | div rd rs1 rs2 => exact effect_div s rd rs1 rs2
  | divu rd rs1 rs2 => exact effect_divu s rd rs1 rs2
  | rem rd rs1 rs2 => exact effect_rem s rd rs1 rs2
  | remu rd rs1 rs2 => exact effect_remu s rd rs1 rs2
  | flw rd rs1 imm => exact effect_flw s rd rs1 imm
  | fld rd rs1 imm => exact effect_fld s rd rs1 imm
  | fsw rs1 rs2 imm => exact effect_fsw s rs1 rs2 imm
  | fsd rs1 rs2 imm => exact effect_fsd s rs1 rs2 imm
  | faddS rd rs1 rs2 rm => exact effect_faddS s rd rs1 rs2 rm
  | faddD rd rs1 rs2 rm => exact effect_faddD s rd rs1 rs2 rm
  | fsubS rd rs1 rs2 rm => exact effect_fsubS s rd rs1 rs2 rm
  | fsubD rd rs1 rs2 rm => exact effect_fsubD s rd rs1 rs2 rm
  | fmulS rd rs1 rs2 rm => exact effect_fmulS s rd rs1 rs2 rm
  | fmulD rd rs1 rs2 rm => exact effect_fmulD s rd rs1 rs2 rm
  | fdivS rd rs1 rs2 rm => exact effect_fdivS s rd rs1 rs2 rm
  | fdivD rd rs1 rs2 rm => exact effect_fdivD s rd rs1 rs2 rm
  | fsqrtS rd rs1 rm => exact effect_fsqrtS s rd rs1 rm
  | fsqrtD rd rs1 rm => exact effect_fsqrtD s rd rs1 rm
  | fmaddS rd rs1 rs2 rs3 rm => exact effect_fmaddS s rd rs1 rs2 rs3 rm
  | fmaddD rd rs1 rs2 rs3 rm => exact effect_fmaddD s rd rs1 rs2 rs3 rm
  | fmsubS rd rs1 rs2 rs3 rm => exact effect_fmsubS s rd rs1 rs2 rs3 rm
  | fmsubD rd rs1 rs2 rs3 rm => exact effect_fmsubD s rd rs1 rs2 rs3 rm
  | fnmsubS rd rs1 rs2 rs3 rm => exact effect_fnmsubS s rd rs1 rs2 rs3 rm
  | fnmsubD rd rs1 rs2 rs3 rm => exact effect_fnmsubD s rd rs1 rs2 rs3 rm
  | fnmaddS rd rs1 rs2 rs3 rm => exact effect_fnmaddS s rd rs1 rs2 rs3 rm
  | fnmaddD rd rs1 rs2 rs3 rm => exact effect_fnmaddD s rd rs1 rs2 rs3 rm
  | fsgnjS rd rs1 rs2 => exact effect_fsgnjS s rd rs1 rs2
  | fsgnjD rd rs1 rs2 => exact effect_fsgnjD s rd rs1 rs2
  | fsgnjnS rd rs1 rs2 => exact effect_fsgnjnS s rd rs1 rs2
  | fsgnjnD rd rs1 rs2 => exact effect_fsgnjnD s rd rs1 rs2
  | fsgnjxS rd rs1 rs2 => exact effect_fsgnjxS s rd rs1 rs2
  | fsgnjxD rd rs1 rs2 => exact effect_fsgnjxD s rd rs1 rs2
  | fminS rd rs1 rs2 => exact effect_fminS s rd rs1 rs2
  | fminD rd rs1 rs2 => exact effect_fminD s rd rs1 rs2
  | fmaxS rd rs1 rs2 => exact effect_fmaxS s rd rs1 rs2
  | fmaxD rd rs1 rs2 => exact effect_fmaxD s rd rs1 rs2
  | feqS rd rs1 rs2 => exact effect_feqS s rd rs1 rs2
  | feqD rd rs1 rs2 => exact effect_feqD s rd rs1 rs2
  | fltS rd rs1 rs2 => exact effect_fltS s rd rs1 rs2
  | fltD rd rs1 rs2 => exact effect_fltD s rd rs1 rs2
  | fleS rd rs1 rs2 => exact effect_fleS s rd rs1 rs2
  | fleD rd rs1 rs2 => exact effect_fleD s rd rs1 rs2
  | fclassS rd rs1 => exact effect_fclassS s rd rs1
  | fclassD rd rs1 => exact effect_fclassD s rd rs1
  | fmvSX rd rs1 => exact effect_fmvSX s rd rs1
  | fmvDX rd rs1 => exact effect_fmvDX s rd rs1
  | fmvXS rd rs1 => exact effect_fmvXS s rd rs1
  | fmvXD rd rs1 => exact effect_fmvXD s rd rs1
  | fcvtDS rd rs1 rm => exact effect_fcvtDS s rd rs1 rm
  | fcvtSD rd rs1 rm => exact effect_fcvtSD s rd rs1 rm
  | fcvtSW rd rs1 rm => exact effect_fcvtSW s rd rs1 rm
  | fcvtDW rd rs1 rm => exact effect_fcvtDW s rd rs1 rm
  | fcvtSL rd rs1 rm => exact effect_fcvtSL s rd rs1 rm
  | fcvtDL rd rs1 rm => exact effect_fcvtDL s rd rs1 rm
  | fcvtSWu rd rs1 rm => exact effect_fcvtSWu s rd rs1 rm
  | fcvtDWu rd rs1 rm => exact effect_fcvtDWu s rd rs1 rm
  | fcvtSLu rd rs1 rm => exact effect_fcvtSLu s rd rs1 rm
  | fcvtDLu rd rs1 rm => exact effect_fcvtDLu s rd rs1 rm
  | fcvtWS rd rs1 rm => exact effect_fcvtWS s rd rs1 rm
  | fcvtWD rd rs1 rm => exact effect_fcvtWD s rd rs1 rm
  | fcvtLS rd rs1 rm => exact effect_fcvtLS s rd rs1 rm
  | fcvtLD rd rs1 rm => exact effect_fcvtLD s rd rs1 rm
  | fcvtWuS rd rs1 rm => exact effect_fcvtWuS s rd rs1 rm
  | fcvtWuD rd rs1 rm => exact effect_fcvtWuD s rd rs1 rm
  | fcvtLuS rd rs1 rm => exact effect_fcvtLuS s rd rs1 rm
  | fcvtLuD rd rs1 rm => exact effect_fcvtLuD s rd rs1 rm
  | amoaddW rd rs1 rs2 aq rl => exact effect_amoaddW s rd rs1 rs2 aq rl
  | amoaddD rd rs1 rs2 aq rl => exact effect_amoaddD s rd rs1 rs2 aq rl
  | amoandW rd rs1 rs2 aq rl => exact effect_amoandW s rd rs1 rs2 aq rl
  | amoandD rd rs1 rs2 aq rl => exact effect_amoandD s rd rs1 rs2 aq rl
  | amomaxW rd rs1 rs2 aq rl => exact effect_amomaxW s rd rs1 rs2 aq rl
  | amomaxD rd rs1 rs2 aq rl => exact effect_amomaxD s rd rs1 rs2 aq rl
  | amomaxuW rd rs1 rs2 aq rl => exact effect_amomaxuW s rd rs1 rs2 aq rl
  | amomaxuD rd rs1 rs2 aq rl => exact effect_amomaxuD s rd rs1 rs2 aq rl
  | amominW rd rs1 rs2 aq rl => exact effect_amominW s rd rs1 rs2 aq rl
  | amominD rd rs1 rs2 aq rl => exact effect_amominD s rd rs1 rs2 aq rl
  | amominuW rd rs1 rs2 aq rl => exact effect_amominuW s rd rs1 rs2 aq rl
  | amominuD rd rs1 rs2 aq rl => exact effect_amominuD s rd rs1 rs2 aq rl
  | amoorW rd rs1 rs2 aq rl => exact effect_amoorW s rd rs1 rs2 aq rl
  | amoorD rd rs1 rs2 aq rl => exact effect_amoorD s rd rs1 rs2 aq rl
  | amoswapW rd rs1 rs2 aq rl => exact effect_amoswapW s rd rs1 rs2 aq rl
  | amoswapD rd rs1 rs2 aq rl => exact effect_amoswapD s rd rs1 rs2 aq rl
  | amoxorW rd rs1 rs2 aq rl => exact effect_amoxorW s rd rs1 rs2 aq rl
  | amoxorD rd rs1 rs2 aq rl => exact effect_amoxorD s rd rs1 rs2 aq rl
  | lrW rd rs1 aq rl => exact effect_lrW s rd rs1 aq rl
  | lrD rd rs1 aq rl => exact effect_lrD s rd rs1 aq rl
  | scW rd rs1 rs2 aq rl => exact State.effect_scW rd rs1 rs2 aq rl
  | scD rd rs1 rs2 aq rl => exact effect_scD s rd rs1 rs2 aq rl

end Sys2Proof.Machine
end

