-- ==== Sys2Proof/Laws/Float.lean ====
section
/-! SUPPORT. The intended floating-point arithmetic, said once per operation: which patterns are NaNs, what a NaN operand
gives, and `unpack` in plain numbers (45_fd_float.md R310, R311, R315). -/

namespace Sys2Proof.Machine

/-! ### What a pattern stands for -/

/-- The value of a single pattern (R310, R311). -/
theorem unpack_single (n : Nat) : fpSingle.unpack n =
    if n / 8388608 % 256 = 255 then
      (if n % 8388608 = 0 then .inf (n / 2147483648 % 2 == 1) else .nan (decide (n % 8388608 < 4194304)))
    else if n / 8388608 % 256 = 0 then .finite (n / 2147483648 % 2 == 1) (n % 8388608) (-149)
    else .finite (n / 2147483648 % 2 == 1) (8388608 + n % 8388608) ((n / 8388608 % 256 : Nat) - 127 - 23 : Int) := rfl

/-- The value of a double pattern (R310, R311). -/
theorem unpack_double (n : Nat) : fpDouble.unpack n =
    if n / 4503599627370496 % 2048 = 2047 then
      (if n % 4503599627370496 = 0 then .inf (n / 9223372036854775808 % 2 == 1)
        else .nan (decide (n % 4503599627370496 < 2251799813685248)))
    else if n / 4503599627370496 % 2048 = 0 then .finite (n / 9223372036854775808 % 2 == 1) (n % 4503599627370496) (-1074)
    else .finite (n / 9223372036854775808 % 2 == 1) (4503599627370496 + n % 4503599627370496)
      ((n / 4503599627370496 % 2048 : Nat) - 1023 - 52 : Int) := rfl

theorem isNan_single (a : Word) : (fpSingle.unpack a.toNat).isNan = true ↔ nanS a := by
  have := a.isLt
  simp only [unpack_single, nanS]
  split <;> (try split) <;> simp [FpValue.isNan] <;> omega

theorem isSignaling_single (a : Word) : (fpSingle.unpack a.toNat).isSignaling = true ↔ signalingS a := by
  have := a.isLt
  simp only [unpack_single, signalingS, nanS]
  split <;> (try split) <;> simp [FpValue.isSignaling] <;> omega

theorem isNan_double (a : DWord) : (fpDouble.unpack a.toNat).isNan = true ↔ nanD a := by
  have := a.isLt
  simp only [unpack_double, nanD]
  split <;> (try split) <;> simp [FpValue.isNan] <;> omega

theorem isSignaling_double (a : DWord) : (fpDouble.unpack a.toNat).isSignaling = true ↔ signalingD a := by
  have := a.isLt
  simp only [unpack_double, signalingD, nanD]
  split <;> (try split) <;> simp [FpValue.isSignaling] <;> omega

theorem FpValue.isNan_negate (a : FpValue) : a.negate.isNan = a.isNan := by cases a <;> rfl
theorem FpValue.isSignaling_negate (a : FpValue) : a.negate.isSignaling = a.isSignaling := by cases a <;> rfl

/-! ### Flags and the canonical NaN -/

/-- Bit 4 is NV (10_state.md R35). -/
theorem flagNV_bit (b : Bool) : (flagNV b).getLsbD 4 = b := by cases b <;> rfl

theorem canonicalNan_single : BitVec.ofNat 32 fpSingle.canonicalNan = 0x7FC00000#32 := by decide
theorem canonicalNan_double : BitVec.ofNat 64 fpDouble.canonicalNan = 0x7FF8000000000000#64 := by decide

/-! ### A NaN operand -/

theorem FpFormat.addValues_nan (f : FpFormat) (m : RoundingMode) (a b : FpValue) (h : (a.isNan || b.isNan) = true) :
    f.addValues m a b = f.nanOf [a, b] := by unfold FpFormat.addValues; rw [if_pos h]

theorem FpFormat.mulValues_nan (f : FpFormat) (m : RoundingMode) (a b : FpValue) (h : (a.isNan || b.isNan) = true) :
    f.mulValues m a b = f.nanOf [a, b] := by unfold FpFormat.mulValues; rw [if_pos h]

theorem FpFormat.divValues_nan (f : FpFormat) (m : RoundingMode) (a b : FpValue) (h : (a.isNan || b.isNan) = true) :
    f.divValues m a b = f.nanOf [a, b] := by unfold FpFormat.divValues; rw [if_pos h]

theorem FpFormat.sqrtValue_nan (f : FpFormat) (m : RoundingMode) (a : FpValue) (h : a.isNan = true) :
    f.sqrtValue m a = f.nanOf [a] := by cases a <;> simp_all [FpValue.isNan, FpFormat.sqrtValue]

theorem FpFormat.convert_nan (f : FpFormat) (m : RoundingMode) (a : FpValue) (h : a.isNan = true) :
    f.convert m a = f.nanOf [a] := by cases a <;> simp_all [FpValue.isNan, FpFormat.convert]

/-- With a NaN operand the fused form is zero times infinity, or the NaN case. -/
theorem FpFormat.fmaValues_nan (f : FpFormat) (m : RoundingMode) (a b c : FpValue)
    (h : (a.isNan || b.isNan || c.isNan) = true) :
    f.fmaValues m a b c = f.invalid ∨ f.fmaValues m a b c = f.nanOf [a, b, c] := by
  unfold FpFormat.fmaValues
  split
  · exact .inl rfl
  · exact .inr rfl

/-! ### Rounding to a unit that divides the magnitude -/

/-- A multiple of the unit is rounded to itself, exactly, in every mode (R313). -/
theorem roundToUnit_exact (rm : RoundingMode) (neg : Bool) (n : Nat) (e q : Int) (h : e ≤ q) :
    roundToUnit rm neg (n * 2 ^ (q - e).toNat) e q = (n, false) := by
  unfold roundToUnit
  split
  · have : q = e := by omega
    subst this
    simp
  · have pos : 0 < 2 ^ (q - e).toNat := by positivity
    simp only [Nat.mul_div_cancel _ pos, Nat.mul_mod_left]
    have r : roundsUp rm neg (n % 2 == 1) 0 (2 ^ (q - e).toNat) = false := by
      cases rm <;> simp [roundsUp]
      intro z; exact absurd z.symm (by positivity)
    simp [r]

end Sys2Proof.Machine
end

