-- ==== Sys2Proof/Laws/Invariant.lean ====
section
/-! SUPPORT. Which updates of the state keep the invariant `State.Inv`. -/

namespace Sys2Proof.Machine

/-- An update that touches no register file keeps the invariant when its other parts do. -/
theorem State.Inv.congr {s t : State} (h : s.Inv) (hx : t.x = s.x) (hpc : t.pc.toNat % 4 = 0) (hf : t.f = s.f)
    (hfc : t.fcsr = s.fcsr) (hm : Memory.wf t.mem) (hst : staleWf t.stale)
    (hr : ∀ a, t.reservation = some a → a.toNat % s.params.granule = 0) (hp : t.params = s.params) : t.Inv where
  zero := by unfold State.zeroKept; rw [hx]; exact h.zero
  pc := hpc
  fcsr := by unfold State.fcsrKept; rw [hfc]; exact h.fcsr
  mem := hm
  stale := hst
  reservation := by unfold State.reservationKept; rw [hp]; exact hr
  slots := by intro q r; rw [State.readD_congr hf]; exact h.slots (hp ▸ q) r

/-- `pc + 4` is a multiple of 4 when `pc` is. -/
theorem aligned_add_four {w : Word} (h : w.toNat % 4 = 0) : (w + 4#32).toNat % 4 = 0 := by
  rw [BitVec.toNat_add]; simp; omega

/-- A granule address is a multiple of the granule (10_state.md R41). -/
theorem granuleBase_aligned (p : Params) (a : Word) : (granuleBase p a).toNat % p.granule = 0 := by
  rw [granuleBase_eq]
  unfold granuleOf
  have : p.granule * (a.toNat / p.granule) ≤ a.toNat := Nat.mul_div_le _ _
  rw [BitVec.toNat_ofNat, Nat.mod_eq_of_lt (Nat.lt_of_le_of_lt this a.isLt), Nat.mul_mod_right]

theorem State.Inv.writeX {s : State} (h : s.Inv) (rd : RegIdx) (v : Word) : (s.writeX rd v).Inv where
  zero := by
    have z := h.zero
    unfold State.zeroKept at *
    rw [State.writeX_x]
    split
    · exact z
    · next q =>
      have g := vector_get_set s.x rd 0#5 v
      rw [show (0#5).toFin = (0 : Fin 32) from rfl] at g
      rw [g, if_neg (fun e => q e.symm)]
      exact z
  pc := by simpa [State.pcAligned] using h.pc
  fcsr := by simpa [State.fcsrKept] using h.fcsr
  mem := by simpa using h.mem
  stale := by simpa using h.stale
  reservation := by simpa [State.reservationKept] using h.reservation
  slots := by intro q r; rw [State.readD_congr (State.writeX_f s rd v)]; exact h.slots (by simpa using q) r

theorem State.Inv.advance {s : State} (h : s.Inv) : s.advance.Inv :=
  h.congr rfl (aligned_add_four h.pc) rfl rfl h.mem h.stale h.reservation rfl

theorem State.Inv.setPc {s : State} (h : s.Inv) {a : Word} (ha : a.toNat % 4 = 0) : (s.setPc a).Inv :=
  h.congr rfl ha rfl rfl h.mem h.stale h.reservation rfl

theorem State.Inv.writeFcsr {s : State} (h : s.Inv) (m : BitVec 3) (fl : FpFlags) : (s.writeFcsr m fl).Inv where
  zero := h.zero
  pc := h.pc
  fcsr := (fcsr_fields m fl).2.2
  mem := h.mem
  stale := h.stale
  reservation := h.reservation
  slots := h.slots

theorem State.Inv.writeD {s : State} (h : s.Inv) (rd : RegIdx) (v : DWord)
    (hu : hasD s.params = false → v.extractLsb' 32 32 = 0#32) : (s.writeD rd v).Inv where
  zero := h.zero
  pc := h.pc
  fcsr := h.fcsr
  mem := h.mem
  stale := h.stale
  reservation := h.reservation
  slots := by
    intro q r; rw [State.readD_writeD]
    split
    · exact hu q
    · exact h.slots q r

theorem State.Inv.setReservation {s : State} (h : s.Inv) (r : Option Word)
    (hr : ∀ a, r = some a → a.toNat % s.params.granule = 0) : State.Inv { s with reservation := r } :=
  h.congr rfl h.pc rfl rfl h.mem h.stale hr rfl

theorem State.Inv.takeTrap {s : State} (h : s.Inv) (e : Cause) (info : Word) : (s.takeTrap e info).Inv :=
  h.congr rfl h.pc rfl rfl h.mem h.stale (by simp) rfl

theorem State.Inv.store {s : State} (h : s.Inv) (a : Word) (bs : List Byte) : (s.store a bs).Inv := by
  obtain ⟨m, st⟩ := s.store_keeps_wf bs a h.mem h.stale
  refine h.congr (by simp) (by simpa [State.pcAligned] using h.pc) (by simp) (by simp) m st ?_ (by simp)
  intro g hg
  rw [State.reservation_store] at hg
  split at hg
  · cases hg
  · exact h.reservation g hg

theorem State.Inv.setCsr {s : State} (h : s.Inv) (c : CsrIdx) (v : Word) : (s.setCsr c v).Inv := by
  unfold State.setCsr
  split_ifs
  · exact h.writeFcsr _ _
  · exact h.writeFcsr _ _
  · exact h.writeFcsr _ _
  · exact h.congr rfl h.pc rfl rfl h.mem h.stale h.reservation rfl

theorem State.Inv.afterRead {s : State} (h : s.Inv) (r : Csr) (b : Bool) : (s.afterRead r b).Inv :=
  h.congr (by simp) (by simpa [State.pcAligned] using h.pc) (by simp) (by simp) (by simpa using h.mem)
    (by simpa using h.stale) (by simpa [State.reservationKept] using h.reservation) (by simp)

theorem State.Inv.clearStale {s : State} (h : s.Inv) : State.Inv { s with stale := [] } :=
  h.congr rfl h.pc rfl rfl h.mem ⟨List.Pairwise.nil, by simp⟩ h.reservation rfl

end Sys2Proof.Machine
end

