-- ==== Sys2Proof/Laws/Launch.lean ====
section
/-! SUPPORT. What a launch puts in memory (70_reset_and_hazards.md R442). -/

namespace Sys2Proof.Machine

/-- The address after, and from there on. -/
theorem add_one_add_ofNat (a : Word) (k : Nat) : a + 1#32 + BitVec.ofNat 32 k = a + BitVec.ofNat 32 (k + 1) := by
  rw [BitVec.add_assoc, Nat.add_comm, BitVec.ofNat_add]

/-- Placing bytes leaves every other byte alone. -/
theorem placeBytes_other (bs : List Byte) : ∀ (m : Memory) (a b : Word),
    (∀ k < bs.length, b ≠ a + BitVec.ofNat 32 k) → (placeBytes m a bs).read b.toNat = m.read b.toNat := by
  induction bs with
  | nil => intro m a b _; rfl
  | cons x rest ih =>
    intro m a b h
    rw [placeBytes, ih, Memory.read_write, if_neg]
    · intro e; exact h 0 (by simp) (by simpa using BitVec.eq_of_toNat_eq e)
    · intro k hk e; exact h (k + 1) (by simpa using hk) (by rw [e, add_one_add_ofNat])

/-- A byte that is placed reads back, where no later one of the block wraps round onto it. -/
theorem placeBytes_at (bs : List Byte) : ∀ (m : Memory) (a b : Word) (k : Nat) (v : Byte),
    b = a + BitVec.ofNat 32 k → bs[k]? = some v → (∀ j < bs.length, k < j → b ≠ a + BitVec.ofNat 32 j) →
    (placeBytes m a bs).read b.toNat = v := by
  induction bs with
  | nil => intro m a b k v _ h; simp at h
  | cons x rest ih =>
    intro m a b k v e h l
    cases k with
    | zero =>
      rw [placeBytes, placeBytes_other, Memory.read_write, if_pos (by simp [e])]
      · simpa using h
      · intro j hj; rw [add_one_add_ofNat]; exact l (j + 1) (by simpa using hj) (by omega)
    | succ k =>
      rw [placeBytes]
      refine ih _ _ _ k v (by rw [e, add_one_add_ofNat]) (by simpa using h) fun j hj hk => ?_
      rw [add_one_add_ofNat]; exact l (j + 1) (by simpa using hj) (by omega)

/-- Placing blocks leaves every byte that none of them reaches alone. -/
theorem placeImage_other (blocks : List (Word × List Byte)) : ∀ (m : Memory) (a : Word),
    (∀ c ∈ blocks, ∀ j < c.2.length, a ≠ c.1 + BitVec.ofNat 32 j) →
    (placeImage m blocks).read a.toNat = m.read a.toNat := by
  induction blocks with
  | nil => intro m a _; rfl
  | cons c rest ih =>
    intro m a h
    obtain ⟨x, bs⟩ := c
    rw [placeImage, ih _ _ (fun c hc => h c (by simp [hc])), placeBytes_other _ _ _ _ (h (x, bs) (by simp))]

/-- Blocks are placed one after another. -/
theorem placeImage_append (first : List (Word × List Byte)) : ∀ (m : Memory) (rest : List (Word × List Byte)),
    placeImage m (first ++ rest) = placeImage (placeImage m first) rest := by
  induction first with
  | nil => intro m rest; rfl
  | cons c first ih => intro m rest; exact ih _ _

/-- All that placing blocks puts in memory (70_reset_and_hazards.md R442 (2)). -/
theorem placeImage_at {blocks : List (Word × List Byte)} {m : Memory} {a : Word} {v : Byte} (h : placedAt blocks a v) :
    (placeImage m blocks).read a.toNat = v := by
  obtain ⟨before, b, after, rfl, k, _, e, hv, hl, ho⟩ := h
  rw [placeImage_append, placeImage, placeImage_other _ _ _ ho, placeBytes_at _ _ _ _ k v e hv hl]

/-- The words of a block stand at every fourth address. -/
theorem mem_blockWords (ws : List Word) : ∀ (a : Word) (p : Word × Word), p ∈ blockWords a ws →
    ∃ k < ws.length, p.1 = a + BitVec.ofNat 32 (4 * k) ∧ ws[k]? = some p.2 := by
  induction ws with
  | nil => intro a p h; cases h
  | cons w rest ih =>
    intro a p h
    rcases List.mem_cons.mp h with rfl | h
    · exact ⟨0, by simp, by simp, by simp⟩
    · obtain ⟨k, hk, e, g⟩ := ih _ _ h
      refine ⟨k + 1, by simpa using hk, ?_, by simpa using g⟩
      rw [e, BitVec.add_assoc, show 4 * (k + 1) = 4 + 4 * k by omega, BitVec.ofNat_add]

end Sys2Proof.Machine
end

