-- ==== Sys2Proof/Laws/PerInstr.lean ====
section
/-! SUPPORT. The family `EncodeRow`: the word of an instruction, under the mask of its row of spec/opcode_table.json, is the
match value of that row (30_encoding.md R93, R100 to R102). -/

namespace Sys2Proof.Laws

/-! ### How a mask meets a word -/

theorem append_and {m n : Nat} (a b : BitVec m) (c d : BitVec n) : (a ++ c) &&& (b ++ d) = (a &&& b) ++ (c &&& d) := by
  apply BitVec.eq_of_getLsbD_eq; intro i hi
  simp only [BitVec.getLsbD_and, BitVec.getLsbD_append]
  split <;> rfl

/-- A mask that is itself cut into the six fields acts on each field (R82). -/
theorem pack_and (a7 b7 : BitVec 7) (a2 b2 a1 b1 : RegIdx) (a3 b3 : BitVec 3) (ad bd : RegIdx) (ao bo : BitVec 7) :
    pack a7 a2 a1 a3 ad ao &&& pack b7 b2 b1 b3 bd bo =
      pack (a7 &&& b7) (a2 &&& b2) (a1 &&& b1) (a3 &&& b3) (ad &&& bd) (ao &&& bo) := by
  exact (append_and _ _ _ _).trans (congrArg (· ++ (ao &&& bo)) ((append_and _ _ _ _).trans (congrArg (· ++ (ad &&& bd))
    ((append_and _ _ _ _).trans (congrArg (· ++ (a3 &&& b3)) ((append_and _ _ _ _).trans (congrArg (· ++ (a1 &&& b1))
      (append_and _ _ _ _))))))))

/-- The statement of the family: the word is in the row. -/
def EncodeRow.Statement (i : Instr) : Prop := encode i &&& (tableRow i).1 = (tableRow i).2

theorem hi5_and_7C (h : BitVec 5) (l : BitVec 2) : (h ++ l) &&& 0x7C#7 = h ++ 0#2 := by revert h l; decide
theorem hi5_and_03 (h : BitVec 5) (l : BitVec 2) : (h ++ l) &&& 0x03#7 = 0#5 ++ l := by revert h l; decide
theorem ones7 (x : BitVec 7) : x &&& 0x7F#7 = x := by revert x; decide
theorem ones5 (x : BitVec 5) : x &&& 0x1F#5 = x := by revert x; decide
theorem ones3 (x : BitVec 3) : x &&& 0x7#3 = x := by revert x; decide

/-! ### What each mask of the table leaves of a word -/

theorem mask_0000007F (a7 : BitVec 7) (a2 a1 : RegIdx) (a3 : BitVec 3) (ad : RegIdx) (ao : BitVec 7) :
    pack a7 a2 a1 a3 ad ao &&& 0x0000007F#32 = pack 0#7 0#5 0#5 0#3 0#5 ao := by
  have m : 0x0000007F#32 = pack 0x00#7 0x00#5 0x00#5 0x0#3 0x00#5 0x7F#7 := by decide
  rw [m, pack_and]; simp only [ones7, BitVec.and_zero]

theorem mask_0000707F (a7 : BitVec 7) (a2 a1 : RegIdx) (a3 : BitVec 3) (ad : RegIdx) (ao : BitVec 7) :
    pack a7 a2 a1 a3 ad ao &&& 0x0000707F#32 = pack 0#7 0#5 0#5 a3 0#5 ao := by
  have m : 0x0000707F#32 = pack 0x00#7 0x00#5 0x00#5 0x7#3 0x00#5 0x7F#7 := by decide
  rw [m, pack_and]; simp only [ones7, ones3, BitVec.and_zero]

theorem mask_0600007F (h : BitVec 5) (l : BitVec 2) (a2 a1 : RegIdx) (a3 : BitVec 3) (ad : RegIdx) (ao : BitVec 7) :
    pack (h ++ l) a2 a1 a3 ad ao &&& 0x0600007F#32 = pack (0#5 ++ l) 0#5 0#5 0#3 0#5 ao := by
  have m : 0x0600007F#32 = pack 0x03#7 0x00#5 0x00#5 0x0#3 0x00#5 0x7F#7 := by decide
  rw [m, pack_and]; simp only [ones7, hi5_and_03, BitVec.and_zero]

theorem mask_F800707F (h : BitVec 5) (l : BitVec 2) (a2 a1 : RegIdx) (a3 : BitVec 3) (ad : RegIdx) (ao : BitVec 7) :
    pack (h ++ l) a2 a1 a3 ad ao &&& 0xF800707F#32 = pack (h ++ 0#2) 0#5 0#5 a3 0#5 ao := by
  have m : 0xF800707F#32 = pack 0x7C#7 0x00#5 0x00#5 0x7#3 0x00#5 0x7F#7 := by decide
  rw [m, pack_and]; simp only [ones7, ones3, hi5_and_7C, BitVec.and_zero]

theorem mask_F9F0707F (h : BitVec 5) (l : BitVec 2) (a2 a1 : RegIdx) (a3 : BitVec 3) (ad : RegIdx) (ao : BitVec 7) :
    pack (h ++ l) a2 a1 a3 ad ao &&& 0xF9F0707F#32 = pack (h ++ 0#2) a2 0#5 a3 0#5 ao := by
  have m : 0xF9F0707F#32 = pack 0x7C#7 0x1F#5 0x00#5 0x7#3 0x00#5 0x7F#7 := by decide
  rw [m, pack_and]; simp only [ones7, ones5, ones3, hi5_and_7C, BitVec.and_zero]

theorem mask_FE00007F (a7 : BitVec 7) (a2 a1 : RegIdx) (a3 : BitVec 3) (ad : RegIdx) (ao : BitVec 7) :
    pack a7 a2 a1 a3 ad ao &&& 0xFE00007F#32 = pack a7 0#5 0#5 0#3 0#5 ao := by
  have m : 0xFE00007F#32 = pack 0x7F#7 0x00#5 0x00#5 0x0#3 0x00#5 0x7F#7 := by decide
  rw [m, pack_and]; simp only [ones7, BitVec.and_zero]

theorem mask_FE00707F (a7 : BitVec 7) (a2 a1 : RegIdx) (a3 : BitVec 3) (ad : RegIdx) (ao : BitVec 7) :
    pack a7 a2 a1 a3 ad ao &&& 0xFE00707F#32 = pack a7 0#5 0#5 a3 0#5 ao := by
  have m : 0xFE00707F#32 = pack 0x7F#7 0x00#5 0x00#5 0x7#3 0x00#5 0x7F#7 := by decide
  rw [m, pack_and]; simp only [ones7, ones3, BitVec.and_zero]

theorem mask_FFF0007F (a7 : BitVec 7) (a2 a1 : RegIdx) (a3 : BitVec 3) (ad : RegIdx) (ao : BitVec 7) :
    pack a7 a2 a1 a3 ad ao &&& 0xFFF0007F#32 = pack a7 a2 0#5 0#3 0#5 ao := by
  have m : 0xFFF0007F#32 = pack 0x7F#7 0x1F#5 0x00#5 0x0#3 0x00#5 0x7F#7 := by decide
  rw [m, pack_and]; simp only [ones7, ones5, BitVec.and_zero]

theorem mask_FFF0707F (a7 : BitVec 7) (a2 a1 : RegIdx) (a3 : BitVec 3) (ad : RegIdx) (ao : BitVec 7) :
    pack a7 a2 a1 a3 ad ao &&& 0xFFF0707F#32 = pack a7 a2 0#5 a3 0#5 ao := by
  have m : 0xFFF0707F#32 = pack 0x7F#7 0x1F#5 0x00#5 0x7#3 0x00#5 0x7F#7 := by decide
  rw [m, pack_and]; simp only [ones7, ones5, ones3, BitVec.and_zero]

/-! ### One lemma per instruction -/

theorem EncodeRow.add (rd rs1 rs2 : RegIdx) : EncodeRow.Statement (.add rd rs1 rs2) := (mask_FE00707F ..).trans rfl
theorem EncodeRow.addi (rd rs1 : RegIdx) (imm : BitVec 12) : EncodeRow.Statement (.addi rd rs1 imm) := (mask_0000707F ..).trans rfl
theorem EncodeRow.and (rd rs1 rs2 : RegIdx) : EncodeRow.Statement (.and rd rs1 rs2) := (mask_FE00707F ..).trans rfl
theorem EncodeRow.andi (rd rs1 : RegIdx) (imm : BitVec 12) : EncodeRow.Statement (.andi rd rs1 imm) := (mask_0000707F ..).trans rfl
theorem EncodeRow.auipc (rd : RegIdx) (imm : BitVec 20) : EncodeRow.Statement (.auipc rd imm) := (mask_0000007F ..).trans rfl
theorem EncodeRow.lui (rd : RegIdx) (imm : BitVec 20) : EncodeRow.Statement (.lui rd imm) := (mask_0000007F ..).trans rfl
theorem EncodeRow.or (rd rs1 rs2 : RegIdx) : EncodeRow.Statement (.or rd rs1 rs2) := (mask_FE00707F ..).trans rfl
theorem EncodeRow.ori (rd rs1 : RegIdx) (imm : BitVec 12) : EncodeRow.Statement (.ori rd rs1 imm) := (mask_0000707F ..).trans rfl
theorem EncodeRow.sll (rd rs1 rs2 : RegIdx) : EncodeRow.Statement (.sll rd rs1 rs2) := (mask_FE00707F ..).trans rfl
theorem EncodeRow.slli (rd rs1 : RegIdx) (shamt : BitVec 5) : EncodeRow.Statement (.slli rd rs1 shamt) := (mask_FE00707F ..).trans rfl
theorem EncodeRow.slt (rd rs1 rs2 : RegIdx) : EncodeRow.Statement (.slt rd rs1 rs2) := (mask_FE00707F ..).trans rfl
theorem EncodeRow.slti (rd rs1 : RegIdx) (imm : BitVec 12) : EncodeRow.Statement (.slti rd rs1 imm) := (mask_0000707F ..).trans rfl
theorem EncodeRow.sltiu (rd rs1 : RegIdx) (imm : BitVec 12) : EncodeRow.Statement (.sltiu rd rs1 imm) := (mask_0000707F ..).trans rfl
theorem EncodeRow.sltu (rd rs1 rs2 : RegIdx) : EncodeRow.Statement (.sltu rd rs1 rs2) := (mask_FE00707F ..).trans rfl
theorem EncodeRow.sra (rd rs1 rs2 : RegIdx) : EncodeRow.Statement (.sra rd rs1 rs2) := (mask_FE00707F ..).trans rfl
theorem EncodeRow.srai (rd rs1 : RegIdx) (shamt : BitVec 5) : EncodeRow.Statement (.srai rd rs1 shamt) := (mask_FE00707F ..).trans rfl
theorem EncodeRow.srl (rd rs1 rs2 : RegIdx) : EncodeRow.Statement (.srl rd rs1 rs2) := (mask_FE00707F ..).trans rfl
theorem EncodeRow.srli (rd rs1 : RegIdx) (shamt : BitVec 5) : EncodeRow.Statement (.srli rd rs1 shamt) := (mask_FE00707F ..).trans rfl
theorem EncodeRow.sub (rd rs1 rs2 : RegIdx) : EncodeRow.Statement (.sub rd rs1 rs2) := (mask_FE00707F ..).trans rfl
theorem EncodeRow.xor (rd rs1 rs2 : RegIdx) : EncodeRow.Statement (.xor rd rs1 rs2) := (mask_FE00707F ..).trans rfl
theorem EncodeRow.xori (rd rs1 : RegIdx) (imm : BitVec 12) : EncodeRow.Statement (.xori rd rs1 imm) := (mask_0000707F ..).trans rfl
theorem EncodeRow.beq (rs1 rs2 : RegIdx) (off : BitVec 13) : EncodeRow.Statement (.beq rs1 rs2 off) := (mask_0000707F ..).trans rfl
theorem EncodeRow.bge (rs1 rs2 : RegIdx) (off : BitVec 13) : EncodeRow.Statement (.bge rs1 rs2 off) := (mask_0000707F ..).trans rfl
theorem EncodeRow.bgeu (rs1 rs2 : RegIdx) (off : BitVec 13) : EncodeRow.Statement (.bgeu rs1 rs2 off) := (mask_0000707F ..).trans rfl
theorem EncodeRow.blt (rs1 rs2 : RegIdx) (off : BitVec 13) : EncodeRow.Statement (.blt rs1 rs2 off) := (mask_0000707F ..).trans rfl
theorem EncodeRow.bltu (rs1 rs2 : RegIdx) (off : BitVec 13) : EncodeRow.Statement (.bltu rs1 rs2 off) := (mask_0000707F ..).trans rfl
theorem EncodeRow.bne (rs1 rs2 : RegIdx) (off : BitVec 13) : EncodeRow.Statement (.bne rs1 rs2 off) := (mask_0000707F ..).trans rfl
theorem EncodeRow.jal (rd : RegIdx) (off : BitVec 21) : EncodeRow.Statement (.jal rd off) := (mask_0000007F ..).trans rfl
theorem EncodeRow.jalr (rd rs1 : RegIdx) (imm : BitVec 12) : EncodeRow.Statement (.jalr rd rs1 imm) := (mask_0000707F ..).trans rfl
theorem EncodeRow.lb (rd rs1 : RegIdx) (imm : BitVec 12) : EncodeRow.Statement (.lb rd rs1 imm) := (mask_0000707F ..).trans rfl
theorem EncodeRow.lbu (rd rs1 : RegIdx) (imm : BitVec 12) : EncodeRow.Statement (.lbu rd rs1 imm) := (mask_0000707F ..).trans rfl
theorem EncodeRow.lh (rd rs1 : RegIdx) (imm : BitVec 12) : EncodeRow.Statement (.lh rd rs1 imm) := (mask_0000707F ..).trans rfl
theorem EncodeRow.lhu (rd rs1 : RegIdx) (imm : BitVec 12) : EncodeRow.Statement (.lhu rd rs1 imm) := (mask_0000707F ..).trans rfl
theorem EncodeRow.lw (rd rs1 : RegIdx) (imm : BitVec 12) : EncodeRow.Statement (.lw rd rs1 imm) := (mask_0000707F ..).trans rfl
theorem EncodeRow.sb (rs1 rs2 : RegIdx) (imm : BitVec 12) : EncodeRow.Statement (.sb rs1 rs2 imm) := (mask_0000707F ..).trans rfl
theorem EncodeRow.sh (rs1 rs2 : RegIdx) (imm : BitVec 12) : EncodeRow.Statement (.sh rs1 rs2 imm) := (mask_0000707F ..).trans rfl
theorem EncodeRow.sw (rs1 rs2 : RegIdx) (imm : BitVec 12) : EncodeRow.Statement (.sw rs1 rs2 imm) := (mask_0000707F ..).trans rfl
theorem EncodeRow.csrrc (rd rs1 : RegIdx) (csr : CsrIdx) : EncodeRow.Statement (.csrrc rd rs1 csr) := (mask_0000707F ..).trans rfl
theorem EncodeRow.csrrci (rd : RegIdx) (uimm : BitVec 5) (csr : CsrIdx) : EncodeRow.Statement (.csrrci rd uimm csr) := (mask_0000707F ..).trans rfl
theorem EncodeRow.csrrs (rd rs1 : RegIdx) (csr : CsrIdx) : EncodeRow.Statement (.csrrs rd rs1 csr) := (mask_0000707F ..).trans rfl
theorem EncodeRow.csrrsi (rd : RegIdx) (uimm : BitVec 5) (csr : CsrIdx) : EncodeRow.Statement (.csrrsi rd uimm csr) := (mask_0000707F ..).trans rfl
theorem EncodeRow.csrrw (rd rs1 : RegIdx) (csr : CsrIdx) : EncodeRow.Statement (.csrrw rd rs1 csr) := (mask_0000707F ..).trans rfl
theorem EncodeRow.csrrwi (rd : RegIdx) (uimm : BitVec 5) (csr : CsrIdx) : EncodeRow.Statement (.csrrwi rd uimm csr) := (mask_0000707F ..).trans rfl
theorem EncodeRow.ebreak : EncodeRow.Statement (.ebreak) := rfl
theorem EncodeRow.ecall : EncodeRow.Statement (.ecall) := rfl
theorem EncodeRow.fence (rd rs1 : RegIdx) (imm : BitVec 12) : EncodeRow.Statement (.fence rd rs1 imm) := (mask_0000707F ..).trans rfl
theorem EncodeRow.fenceI (rd rs1 : RegIdx) (imm : BitVec 12) : EncodeRow.Statement (.fenceI rd rs1 imm) := (mask_0000707F ..).trans rfl
theorem EncodeRow.mul (rd rs1 rs2 : RegIdx) : EncodeRow.Statement (.mul rd rs1 rs2) := (mask_FE00707F ..).trans rfl
theorem EncodeRow.mulh (rd rs1 rs2 : RegIdx) : EncodeRow.Statement (.mulh rd rs1 rs2) := (mask_FE00707F ..).trans rfl
theorem EncodeRow.mulhsu (rd rs1 rs2 : RegIdx) : EncodeRow.Statement (.mulhsu rd rs1 rs2) := (mask_FE00707F ..).trans rfl
theorem EncodeRow.mulhu (rd rs1 rs2 : RegIdx) : EncodeRow.Statement (.mulhu rd rs1 rs2) := (mask_FE00707F ..).trans rfl
theorem EncodeRow.div (rd rs1 rs2 : RegIdx) : EncodeRow.Statement (.div rd rs1 rs2) := (mask_FE00707F ..).trans rfl
theorem EncodeRow.divu (rd rs1 rs2 : RegIdx) : EncodeRow.Statement (.divu rd rs1 rs2) := (mask_FE00707F ..).trans rfl
theorem EncodeRow.rem (rd rs1 rs2 : RegIdx) : EncodeRow.Statement (.rem rd rs1 rs2) := (mask_FE00707F ..).trans rfl
theorem EncodeRow.remu (rd rs1 rs2 : RegIdx) : EncodeRow.Statement (.remu rd rs1 rs2) := (mask_FE00707F ..).trans rfl
theorem EncodeRow.flw (rd rs1 : RegIdx) (imm : BitVec 12) : EncodeRow.Statement (.flw rd rs1 imm) := (mask_0000707F ..).trans rfl
theorem EncodeRow.fld (rd rs1 : RegIdx) (imm : BitVec 12) : EncodeRow.Statement (.fld rd rs1 imm) := (mask_0000707F ..).trans rfl
theorem EncodeRow.fsw (rs1 rs2 : RegIdx) (imm : BitVec 12) : EncodeRow.Statement (.fsw rs1 rs2 imm) := (mask_0000707F ..).trans rfl
theorem EncodeRow.fsd (rs1 rs2 : RegIdx) (imm : BitVec 12) : EncodeRow.Statement (.fsd rs1 rs2 imm) := (mask_0000707F ..).trans rfl
theorem EncodeRow.faddS (rd rs1 rs2 : RegIdx) (rm : BitVec 3) : EncodeRow.Statement (.faddS rd rs1 rs2 rm) := (mask_FE00007F ..).trans rfl
theorem EncodeRow.faddD (rd rs1 rs2 : RegIdx) (rm : BitVec 3) : EncodeRow.Statement (.faddD rd rs1 rs2 rm) := (mask_FE00007F ..).trans rfl
theorem EncodeRow.fsubS (rd rs1 rs2 : RegIdx) (rm : BitVec 3) : EncodeRow.Statement (.fsubS rd rs1 rs2 rm) := (mask_FE00007F ..).trans rfl
theorem EncodeRow.fsubD (rd rs1 rs2 : RegIdx) (rm : BitVec 3) : EncodeRow.Statement (.fsubD rd rs1 rs2 rm) := (mask_FE00007F ..).trans rfl
theorem EncodeRow.fmulS (rd rs1 rs2 : RegIdx) (rm : BitVec 3) : EncodeRow.Statement (.fmulS rd rs1 rs2 rm) := (mask_FE00007F ..).trans rfl
theorem EncodeRow.fmulD (rd rs1 rs2 : RegIdx) (rm : BitVec 3) : EncodeRow.Statement (.fmulD rd rs1 rs2 rm) := (mask_FE00007F ..).trans rfl
theorem EncodeRow.fdivS (rd rs1 rs2 : RegIdx) (rm : BitVec 3) : EncodeRow.Statement (.fdivS rd rs1 rs2 rm) := (mask_FE00007F ..).trans rfl
theorem EncodeRow.fdivD (rd rs1 rs2 : RegIdx) (rm : BitVec 3) : EncodeRow.Statement (.fdivD rd rs1 rs2 rm) := (mask_FE00007F ..).trans rfl
theorem EncodeRow.fsqrtS (rd rs1 : RegIdx) (rm : BitVec 3) : EncodeRow.Statement (.fsqrtS rd rs1 rm) := (mask_FFF0007F ..).trans rfl
theorem EncodeRow.fsqrtD (rd rs1 : RegIdx) (rm : BitVec 3) : EncodeRow.Statement (.fsqrtD rd rs1 rm) := (mask_FFF0007F ..).trans rfl
theorem EncodeRow.fmaddS (rd rs1 rs2 rs3 : RegIdx) (rm : BitVec 3) : EncodeRow.Statement (.fmaddS rd rs1 rs2 rs3 rm) := (mask_0600007F ..).trans rfl
theorem EncodeRow.fmaddD (rd rs1 rs2 rs3 : RegIdx) (rm : BitVec 3) : EncodeRow.Statement (.fmaddD rd rs1 rs2 rs3 rm) := (mask_0600007F ..).trans rfl
theorem EncodeRow.fmsubS (rd rs1 rs2 rs3 : RegIdx) (rm : BitVec 3) : EncodeRow.Statement (.fmsubS rd rs1 rs2 rs3 rm) := (mask_0600007F ..).trans rfl
theorem EncodeRow.fmsubD (rd rs1 rs2 rs3 : RegIdx) (rm : BitVec 3) : EncodeRow.Statement (.fmsubD rd rs1 rs2 rs3 rm) := (mask_0600007F ..).trans rfl
theorem EncodeRow.fnmsubS (rd rs1 rs2 rs3 : RegIdx) (rm : BitVec 3) : EncodeRow.Statement (.fnmsubS rd rs1 rs2 rs3 rm) := (mask_0600007F ..).trans rfl
theorem EncodeRow.fnmsubD (rd rs1 rs2 rs3 : RegIdx) (rm : BitVec 3) : EncodeRow.Statement (.fnmsubD rd rs1 rs2 rs3 rm) := (mask_0600007F ..).trans rfl
theorem EncodeRow.fnmaddS (rd rs1 rs2 rs3 : RegIdx) (rm : BitVec 3) : EncodeRow.Statement (.fnmaddS rd rs1 rs2 rs3 rm) := (mask_0600007F ..).trans rfl
theorem EncodeRow.fnmaddD (rd rs1 rs2 rs3 : RegIdx) (rm : BitVec 3) : EncodeRow.Statement (.fnmaddD rd rs1 rs2 rs3 rm) := (mask_0600007F ..).trans rfl
theorem EncodeRow.fsgnjS (rd rs1 rs2 : RegIdx) : EncodeRow.Statement (.fsgnjS rd rs1 rs2) := (mask_FE00707F ..).trans rfl
theorem EncodeRow.fsgnjD (rd rs1 rs2 : RegIdx) : EncodeRow.Statement (.fsgnjD rd rs1 rs2) := (mask_FE00707F ..).trans rfl
theorem EncodeRow.fsgnjnS (rd rs1 rs2 : RegIdx) : EncodeRow.Statement (.fsgnjnS rd rs1 rs2) := (mask_FE00707F ..).trans rfl
theorem EncodeRow.fsgnjnD (rd rs1 rs2 : RegIdx) : EncodeRow.Statement (.fsgnjnD rd rs1 rs2) := (mask_FE00707F ..).trans rfl
theorem EncodeRow.fsgnjxS (rd rs1 rs2 : RegIdx) : EncodeRow.Statement (.fsgnjxS rd rs1 rs2) := (mask_FE00707F ..).trans rfl
theorem EncodeRow.fsgnjxD (rd rs1 rs2 : RegIdx) : EncodeRow.Statement (.fsgnjxD rd rs1 rs2) := (mask_FE00707F ..).trans rfl
theorem EncodeRow.fminS (rd rs1 rs2 : RegIdx) : EncodeRow.Statement (.fminS rd rs1 rs2) := (mask_FE00707F ..).trans rfl
theorem EncodeRow.fminD (rd rs1 rs2 : RegIdx) : EncodeRow.Statement (.fminD rd rs1 rs2) := (mask_FE00707F ..).trans rfl
theorem EncodeRow.fmaxS (rd rs1 rs2 : RegIdx) : EncodeRow.Statement (.fmaxS rd rs1 rs2) := (mask_FE00707F ..).trans rfl
theorem EncodeRow.fmaxD (rd rs1 rs2 : RegIdx) : EncodeRow.Statement (.fmaxD rd rs1 rs2) := (mask_FE00707F ..).trans rfl
theorem EncodeRow.feqS (rd rs1 rs2 : RegIdx) : EncodeRow.Statement (.feqS rd rs1 rs2) := (mask_FE00707F ..).trans rfl
theorem EncodeRow.feqD (rd rs1 rs2 : RegIdx) : EncodeRow.Statement (.feqD rd rs1 rs2) := (mask_FE00707F ..).trans rfl
theorem EncodeRow.fltS (rd rs1 rs2 : RegIdx) : EncodeRow.Statement (.fltS rd rs1 rs2) := (mask_FE00707F ..).trans rfl
theorem EncodeRow.fltD (rd rs1 rs2 : RegIdx) : EncodeRow.Statement (.fltD rd rs1 rs2) := (mask_FE00707F ..).trans rfl
theorem EncodeRow.fleS (rd rs1 rs2 : RegIdx) : EncodeRow.Statement (.fleS rd rs1 rs2) := (mask_FE00707F ..).trans rfl
theorem EncodeRow.fleD (rd rs1 rs2 : RegIdx) : EncodeRow.Statement (.fleD rd rs1 rs2) := (mask_FE00707F ..).trans rfl
theorem EncodeRow.fclassS (rd rs1 : RegIdx) : EncodeRow.Statement (.fclassS rd rs1) := (mask_FFF0707F ..).trans rfl
theorem EncodeRow.fclassD (rd rs1 : RegIdx) : EncodeRow.Statement (.fclassD rd rs1) := (mask_FFF0707F ..).trans rfl
theorem EncodeRow.fmvSX (rd rs1 : RegIdx) : EncodeRow.Statement (.fmvSX rd rs1) := (mask_FFF0707F ..).trans rfl
theorem EncodeRow.fmvDX (rd rs1 : RegIdx) : EncodeRow.Statement (.fmvDX rd rs1) := (mask_FFF0707F ..).trans rfl
theorem EncodeRow.fmvXS (rd rs1 : RegIdx) : EncodeRow.Statement (.fmvXS rd rs1) := (mask_FFF0707F ..).trans rfl
theorem EncodeRow.fmvXD (rd rs1 : RegIdx) : EncodeRow.Statement (.fmvXD rd rs1) := (mask_FFF0707F ..).trans rfl
theorem EncodeRow.fcvtDS (rd rs1 : RegIdx) (rm : BitVec 3) : EncodeRow.Statement (.fcvtDS rd rs1 rm) := (mask_FFF0007F ..).trans rfl
theorem EncodeRow.fcvtSD (rd rs1 : RegIdx) (rm : BitVec 3) : EncodeRow.Statement (.fcvtSD rd rs1 rm) := (mask_FFF0007F ..).trans rfl
theorem EncodeRow.fcvtSW (rd rs1 : RegIdx) (rm : BitVec 3) : EncodeRow.Statement (.fcvtSW rd rs1 rm) := (mask_FFF0007F ..).trans rfl
theorem EncodeRow.fcvtDW (rd rs1 : RegIdx) (rm : BitVec 3) : EncodeRow.Statement (.fcvtDW rd rs1 rm) := (mask_FFF0007F ..).trans rfl
theorem EncodeRow.fcvtSL (rd rs1 : RegIdx) (rm : BitVec 3) : EncodeRow.Statement (.fcvtSL rd rs1 rm) := (mask_FFF0007F ..).trans rfl
theorem EncodeRow.fcvtDL (rd rs1 : RegIdx) (rm : BitVec 3) : EncodeRow.Statement (.fcvtDL rd rs1 rm) := (mask_FFF0007F ..).trans rfl
theorem EncodeRow.fcvtSWu (rd rs1 : RegIdx) (rm : BitVec 3) : EncodeRow.Statement (.fcvtSWu rd rs1 rm) := (mask_FFF0007F ..).trans rfl
theorem EncodeRow.fcvtDWu (rd rs1 : RegIdx) (rm : BitVec 3) : EncodeRow.Statement (.fcvtDWu rd rs1 rm) := (mask_FFF0007F ..).trans rfl
theorem EncodeRow.fcvtSLu (rd rs1 : RegIdx) (rm : BitVec 3) : EncodeRow.Statement (.fcvtSLu rd rs1 rm) := (mask_FFF0007F ..).trans rfl
theorem EncodeRow.fcvtDLu (rd rs1 : RegIdx) (rm : BitVec 3) : EncodeRow.Statement (.fcvtDLu rd rs1 rm) := (mask_FFF0007F ..).trans rfl
theorem EncodeRow.fcvtWS (rd rs1 : RegIdx) (rm : BitVec 3) : EncodeRow.Statement (.fcvtWS rd rs1 rm) := (mask_FFF0007F ..).trans rfl
theorem EncodeRow.fcvtWD (rd rs1 : RegIdx) (rm : BitVec 3) : EncodeRow.Statement (.fcvtWD rd rs1 rm) := (mask_FFF0007F ..).trans rfl
theorem EncodeRow.fcvtLS (rd rs1 : RegIdx) (rm : BitVec 3) : EncodeRow.Statement (.fcvtLS rd rs1 rm) := (mask_FFF0007F ..).trans rfl
theorem EncodeRow.fcvtLD (rd rs1 : RegIdx) (rm : BitVec 3) : EncodeRow.Statement (.fcvtLD rd rs1 rm) := (mask_FFF0007F ..).trans rfl
theorem EncodeRow.fcvtWuS (rd rs1 : RegIdx) (rm : BitVec 3) : EncodeRow.Statement (.fcvtWuS rd rs1 rm) := (mask_FFF0007F ..).trans rfl
theorem EncodeRow.fcvtWuD (rd rs1 : RegIdx) (rm : BitVec 3) : EncodeRow.Statement (.fcvtWuD rd rs1 rm) := (mask_FFF0007F ..).trans rfl
theorem EncodeRow.fcvtLuS (rd rs1 : RegIdx) (rm : BitVec 3) : EncodeRow.Statement (.fcvtLuS rd rs1 rm) := (mask_FFF0007F ..).trans rfl
theorem EncodeRow.fcvtLuD (rd rs1 : RegIdx) (rm : BitVec 3) : EncodeRow.Statement (.fcvtLuD rd rs1 rm) := (mask_FFF0007F ..).trans rfl
theorem EncodeRow.amoaddW (rd rs1 rs2 : RegIdx) (aq rl : BitVec 1) : EncodeRow.Statement (.amoaddW rd rs1 rs2 aq rl) := (mask_F800707F ..).trans rfl
theorem EncodeRow.amoaddD (rd rs1 rs2 : RegIdx) (aq rl : BitVec 1) : EncodeRow.Statement (.amoaddD rd rs1 rs2 aq rl) := (mask_F800707F ..).trans rfl
theorem EncodeRow.amoandW (rd rs1 rs2 : RegIdx) (aq rl : BitVec 1) : EncodeRow.Statement (.amoandW rd rs1 rs2 aq rl) := (mask_F800707F ..).trans rfl
theorem EncodeRow.amoandD (rd rs1 rs2 : RegIdx) (aq rl : BitVec 1) : EncodeRow.Statement (.amoandD rd rs1 rs2 aq rl) := (mask_F800707F ..).trans rfl
theorem EncodeRow.amomaxW (rd rs1 rs2 : RegIdx) (aq rl : BitVec 1) : EncodeRow.Statement (.amomaxW rd rs1 rs2 aq rl) := (mask_F800707F ..).trans rfl
theorem EncodeRow.amomaxD (rd rs1 rs2 : RegIdx) (aq rl : BitVec 1) : EncodeRow.Statement (.amomaxD rd rs1 rs2 aq rl) := (mask_F800707F ..).trans rfl
theorem EncodeRow.amomaxuW (rd rs1 rs2 : RegIdx) (aq rl : BitVec 1) : EncodeRow.Statement (.amomaxuW rd rs1 rs2 aq rl) := (mask_F800707F ..).trans rfl
theorem EncodeRow.amomaxuD (rd rs1 rs2 : RegIdx) (aq rl : BitVec 1) : EncodeRow.Statement (.amomaxuD rd rs1 rs2 aq rl) := (mask_F800707F ..).trans rfl
theorem EncodeRow.amominW (rd rs1 rs2 : RegIdx) (aq rl : BitVec 1) : EncodeRow.Statement (.amominW rd rs1 rs2 aq rl) := (mask_F800707F ..).trans rfl
theorem EncodeRow.amominD (rd rs1 rs2 : RegIdx) (aq rl : BitVec 1) : EncodeRow.Statement (.amominD rd rs1 rs2 aq rl) := (mask_F800707F ..).trans rfl
theorem EncodeRow.amominuW (rd rs1 rs2 : RegIdx) (aq rl : BitVec 1) : EncodeRow.Statement (.amominuW rd rs1 rs2 aq rl) := (mask_F800707F ..).trans rfl
theorem EncodeRow.amominuD (rd rs1 rs2 : RegIdx) (aq rl : BitVec 1) : EncodeRow.Statement (.amominuD rd rs1 rs2 aq rl) := (mask_F800707F ..).trans rfl
theorem EncodeRow.amoorW (rd rs1 rs2 : RegIdx) (aq rl : BitVec 1) : EncodeRow.Statement (.amoorW rd rs1 rs2 aq rl) := (mask_F800707F ..).trans rfl
theorem EncodeRow.amoorD (rd rs1 rs2 : RegIdx) (aq rl : BitVec 1) : EncodeRow.Statement (.amoorD rd rs1 rs2 aq rl) := (mask_F800707F ..).trans rfl
theorem EncodeRow.amoswapW (rd rs1 rs2 : RegIdx) (aq rl : BitVec 1) : EncodeRow.Statement (.amoswapW rd rs1 rs2 aq rl) := (mask_F800707F ..).trans rfl
theorem EncodeRow.amoswapD (rd rs1 rs2 : RegIdx) (aq rl : BitVec 1) : EncodeRow.Statement (.amoswapD rd rs1 rs2 aq rl) := (mask_F800707F ..).trans rfl
theorem EncodeRow.amoxorW (rd rs1 rs2 : RegIdx) (aq rl : BitVec 1) : EncodeRow.Statement (.amoxorW rd rs1 rs2 aq rl) := (mask_F800707F ..).trans rfl
theorem EncodeRow.amoxorD (rd rs1 rs2 : RegIdx) (aq rl : BitVec 1) : EncodeRow.Statement (.amoxorD rd rs1 rs2 aq rl) := (mask_F800707F ..).trans rfl
theorem EncodeRow.lrW (rd rs1 : RegIdx) (aq rl : BitVec 1) : EncodeRow.Statement (.lrW rd rs1 aq rl) := (mask_F9F0707F ..).trans rfl
theorem EncodeRow.lrD (rd rs1 : RegIdx) (aq rl : BitVec 1) : EncodeRow.Statement (.lrD rd rs1 aq rl) := (mask_F9F0707F ..).trans rfl
theorem EncodeRow.scW (rd rs1 rs2 : RegIdx) (aq rl : BitVec 1) : EncodeRow.Statement (.scW rd rs1 rs2 aq rl) := (mask_F800707F ..).trans rfl
theorem EncodeRow.scD (rd rs1 rs2 : RegIdx) (aq rl : BitVec 1) : EncodeRow.Statement (.scD rd rs1 rs2 aq rl) := (mask_F800707F ..).trans rfl

end Sys2Proof.Laws
end

