-- ==== Sys2Proof/Laws/Rounding.lean ====
section
/-! SUPPORT. Rounding (45_fd_float.md R313, R320), said once: what `roundToUnit`, `FpFormat.round`, a quotient, a root and a
conversion to an integer do, in exact rational numbers and in the terms of Sys2Proof/Safety.lean. -/
namespace Sys2Proof.Machine

/-- A natural power of two as an exact number. -/
theorem pow_cast_zpow (n : Nat) : ((2 ^ n : Nat) : ℚ) = (2 : ℚ) ^ (n : Int) := by simp

/-- The magnitude of a pattern cut into a significand and a power of two. -/
theorem magnitude_pattern (eb fb K n : Nat) (h : K = 0 ∨ 2 ^ fb ≤ n) (hn : n ≤ 2 ^ (fb + 1))
    (hb : K * 2 ^ fb + n ≤ (2 ^ eb - 1) * 2 ^ fb) :
    magnitude eb fb (K * 2 ^ fb + n) = n * (2 : ℚ) ^ (1 - (2 ^ (eb - 1) - 1 : Int) - fb + K) := by
  have P : 0 < 2 ^ fb := by positivity
  have E1 : 1 ≤ 2 ^ eb := Nat.one_le_two_pow
  have two : (2 : ℚ) ≠ 0 := by norm_num
  rw [pow_succ] at hn
  have main : ∀ X r : Nat, K * 2 ^ fb + n = X * 2 ^ fb + r → r < 2 ^ fb → X < 2 ^ eb →
      (K * 2 ^ fb + n) % 2 ^ fb = r ∧ (K * 2 ^ fb + n) / 2 ^ fb % 2 ^ eb = X := by
    intro X r h1 h2 h3
    rw [h1]
    refine ⟨?_, ?_⟩
    · rw [Nat.mul_comm, Nat.mul_add_mod, Nat.mod_eq_of_lt h2]
    · rw [Nat.mul_comm, Nat.mul_add_div P, Nat.div_eq_of_lt h2, Nat.add_zero, Nat.mod_eq_of_lt h3]
  have cap : ∀ X : Nat, X * 2 ^ fb ≤ (2 ^ eb - 1) * 2 ^ fb → X < 2 ^ eb := by
    intro X hX
    have := Nat.le_of_mul_le_mul_right hX P
    omega
  unfold magnitude
  by_cases c1 : n < 2 ^ fb
  · have K0 : K = 0 := by omega
    subst K0
    obtain ⟨a, b⟩ := main 0 n (by ring) c1 (by omega)
    simp only [a, b, if_true]
    push_cast
    rw [show (1 - (2 ^ (eb - 1) - 1 : Int) - fb + 0) = (1 - (2 ^ (eb - 1) - 1)) + -(fb : Int) by ring, zpow_add₀ two, zpow_neg, zpow_natCast]
    field_simp
  · by_cases c2 : n < 2 * 2 ^ fb
    · obtain ⟨a, b⟩ := main (K + 1) (n - 2 ^ fb) (by rw [Nat.add_mul]; omega) (by omega)
        (cap _ (by rw [Nat.add_mul]; omega))
      simp only [a, b, Nat.succ_ne_zero, if_false]
      rw [Nat.cast_sub (by omega)]
      push_cast
      rw [show (1 - (2 ^ (eb - 1) - 1 : Int) - fb + K) = ((K : Int) + 1 - (2 ^ (eb - 1) - 1)) + -(fb : Int) by ring,
        zpow_add₀ two _ (-(fb : Int)), zpow_neg, zpow_natCast]
      field_simp
      ring
    · have n2 : n = 2 * 2 ^ fb := by omega
      obtain ⟨a, b⟩ := main (K + 2) 0 (by rw [Nat.add_mul]; omega) P
        (cap _ (by rw [Nat.add_mul]; omega))
      simp only [a, b, Nat.succ_ne_zero, if_false]
      rw [n2]
      push_cast
      rw [show ((K : Int) + 2 - (2 ^ (eb - 1) - 1 : Int)) = (1 - (2 ^ (eb - 1) - 1 : Int) - fb + K) + (fb : Int) + 1 by ring,
        zpow_add₀ two _ 1, zpow_add₀ two _ (fb : Int), zpow_natCast]
      simp
      ring

/-- A magnitude rounded up, by the mode (R313): the condition of `roundToUnit` in exact numbers. -/
def roundsAway (rm : RoundingMode) (neg : Bool) (quo : Nat) (unit y : ℚ) : Prop :=
  takesUpper rm neg (quo * unit ≠ y) ((quo + 1 / 2) * unit < y) ((quo + 1 / 2) * unit = y) (quo % 2 = 1)

/-- All that rounding to a unit does (R313): the magnitude stands from `quo` units up, and `roundsAway` says whether it
goes to `quo + 1`. -/
theorem roundToUnit_spec (rm : RoundingMode) (neg : Bool) (m : Nat) (e q : Int) :
    ∃ quo : Nat, ∃ up : Bool, (roundToUnit rm neg m e q).1 = (if up then quo + 1 else quo) ∧
      (quo : ℚ) * 2 ^ q ≤ m * 2 ^ e ∧ (m : ℚ) * 2 ^ e < (quo + 1) * 2 ^ q ∧
      ((roundToUnit rm neg m e q).2 = true ↔ (quo : ℚ) * 2 ^ q ≠ m * 2 ^ e) ∧
      (up = true ↔ roundsAway rm neg quo (2 ^ q) (m * 2 ^ e)) := by
  have two : (2 : ℚ) ≠ 0 := by norm_num
  by_cases h : q ≤ e
  · refine ⟨m * 2 ^ (e - q).toNat, false, ?_, ?_, ?_, ?_, ?_⟩
    all_goals
      have E : ((m * 2 ^ (e - q).toNat : Nat) : ℚ) * 2 ^ q = m * 2 ^ e := by
        have : e = ((e - q).toNat : Int) + q := by omega
        conv_rhs => rw [this]
        rw [zpow_add₀ two, zpow_natCast]
        push_cast
        ring
      have pos : (0 : ℚ) < 2 ^ q := by positivity
    · simp [roundToUnit, h]
    · rw [E]
    · rw [add_mul, E]; linarith
    · simp only [roundToUnit, h, if_true, E]; simp
    · have H : ((m * 2 ^ (e - q).toNat : Nat) + 1 / 2 : ℚ) * 2 ^ q = m * 2 ^ e + 1 / 2 * 2 ^ q := by rw [add_mul, E]
      have n1 : ¬ ((m : ℚ) * 2 ^ e + 1 / 2 * 2 ^ q < m * 2 ^ e) := by linarith
      have n2 : ¬ ((m : ℚ) * 2 ^ e + 1 / 2 * 2 ^ q = m * 2 ^ e) := by linarith
      cases rm <;> simp only [roundsAway, takesUpper, H, E, n1, n2] <;> simp
  · have D0 : 0 < 2 ^ (q - e).toNat := by positivity
    have E : (2 : ℚ) ^ q = ((2 ^ (q - e).toNat : Nat) : ℚ) * 2 ^ e := by
      have : q = ((q - e).toNat : Int) + e := by omega
      conv_lhs => rw [this]
      rw [zpow_add₀ two, zpow_natCast]
      push_cast
      ring
    have pos : (0 : ℚ) < 2 ^ e := by positivity
    generalize hD : 2 ^ (q - e).toNat = D at *
    have dm := Nat.div_add_mod m D
    have rl := Nat.mod_lt m D0
    refine ⟨m / D, roundsUp rm neg (m / D % 2 == 1) (m % D) D, ?_, ?_, ?_, ?_, ?_⟩
    · simp only [roundToUnit, h, if_false, hD]
    all_goals
      generalize m / D = quo at *
      generalize hr : m % D = rem at *
    · rw [E, ← mul_assoc]
      refine mul_le_mul_of_nonneg_right ?_ pos.le
      exact_mod_cast (by nlinarith : quo * D ≤ m)
    · rw [E, ← mul_assoc]
      refine mul_lt_mul_of_pos_right ?_ pos
      exact_mod_cast (by nlinarith : m < (quo + 1) * D)
    · simp only [roundToUnit, h, if_false, hD, hr]
      rw [E, ← mul_assoc, ne_eq, mul_left_inj' pos.ne']
      rw [← Nat.cast_mul, Nat.cast_inj]
      simp only [bne_iff_ne, ne_eq, not_iff_not]
      constructor <;> intro <;> nlinarith
    · have ne : ((quo : ℚ) * 2 ^ q ≠ m * 2 ^ e) ↔ rem ≠ 0 := by
        rw [E, ← mul_assoc, ne_eq, mul_left_inj' pos.ne', ← Nat.cast_mul, Nat.cast_inj, ne_eq, not_iff_not]
        constructor <;> intro <;> nlinarith
      have mq : (m : ℚ) = D * quo + rem := by exact_mod_cast dm.symm
      have F : ((quo : ℚ) + 1 / 2) * 2 ^ q = (D * quo + D / 2) * 2 ^ e := by rw [E]; ring
      have lt : ((quo : ℚ) + 1 / 2) * 2 ^ q < m * 2 ^ e ↔ D < 2 * rem := by
        rw [F, mul_lt_mul_iff_left₀ pos, mq]
        have : (D : ℚ) < 2 * rem ↔ D < 2 * rem := by exact_mod_cast Iff.rfl
        rw [← this]
        constructor <;> intro <;> linarith
      have eq : ((quo : ℚ) + 1 / 2) * 2 ^ q = m * 2 ^ e ↔ 2 * rem = D := by
        rw [F, mul_left_inj' pos.ne', mq]
        have : (2 * rem : ℚ) = D ↔ 2 * rem = D := by exact_mod_cast Iff.rfl
        rw [← this]
        constructor <;> intro <;> linarith
      cases rm <;> simp only [roundsAway, takesUpper, roundsUp, lt, eq, ne] <;> simp
      omega

/-- The size of a significand: `log2` in exact numbers. -/
theorem log2_bounds (m : Nat) (h : m ≠ 0) (e : Int) :
    (2 : ℚ) ^ (e + m.log2) ≤ m * 2 ^ e ∧ (m : ℚ) * 2 ^ e < 2 ^ (e + m.log2 + 1) := by
  have two : (2 : ℚ) ≠ 0 := by norm_num
  have a := Nat.log2_self_le h
  have b := Nat.lt_log2_self (n := m)
  have pos : (0 : ℚ) < 2 ^ e := by positivity
  rw [show e + m.log2 + 1 = ((m.log2 + 1 : Nat) : Int) + e by push_cast; ring, show e + m.log2 = (m.log2 : Int) + e by ring,
    zpow_add₀ two, zpow_add₀ two, zpow_natCast, zpow_natCast]
  refine ⟨mul_le_mul_of_nonneg_right ?_ pos.le, mul_lt_mul_of_pos_right ?_ pos⟩
  · exact_mod_cast a
  · exact_mod_cast b

/-- The exponent of the unit of a rounded magnitude. -/
def FpFormat.unitOf (f : FpFormat) (m : Nat) (e : Int) : Int := max (e + m.log2 - f.fracBits) f.qmin

/-- The quotient at that unit has at most one bit more than the fraction, and exactly that many above the subnormals. -/
theorem FpFormat.quo_bounds (f : FpFormat) (m : Nat) (hm : m ≠ 0) (e : Int) (quo : Nat)
    (h1 : (quo : ℚ) * 2 ^ f.unitOf m e ≤ m * 2 ^ e) (h2 : (m : ℚ) * 2 ^ e < (quo + 1) * 2 ^ f.unitOf m e) :
    quo < 2 ^ (f.fracBits + 1) ∧ (f.qmin < f.unitOf m e → 2 ^ f.fracBits ≤ quo) := by
  have two : (2 : ℚ) ≠ 0 := by norm_num
  obtain ⟨a, b⟩ := log2_bounds m hm e
  have pos : (0 : ℚ) < 2 ^ f.unitOf m e := by positivity
  constructor
  · have : (2 : ℚ) ^ (e + m.log2 + 1) ≤ 2 ^ (((f.fracBits + 1 : Nat) : Int) + f.unitOf m e) :=
      zpow_le_zpow_right₀ (by norm_num) (by unfold unitOf; push_cast; omega)
    rw [zpow_add₀ two ((f.fracBits + 1 : Nat) : Int), zpow_natCast] at this
    have := lt_of_mul_lt_mul_right (lt_of_le_of_lt h1 (lt_of_lt_of_le b this)) pos.le
    exact_mod_cast this
  · intro hq
    have : (2 : ℚ) ^ (e + m.log2) = 2 ^ ((f.fracBits : Int) + f.unitOf m e) := by
      congr 1; unfold unitOf at *; omega
    rw [this, zpow_add₀ two, zpow_natCast] at a
    have := lt_of_mul_lt_mul_right (lt_of_le_of_lt a h2) pos.le
    have : 2 ^ f.fracBits < quo + 1 := by exact_mod_cast this
    omega

/-- The pattern of the greatest exponent field and an empty fraction is the infinity (R311). -/
theorem FpFormat.infinity_eq (f : FpFormat) (neg : Bool) : f.infinity neg = infinityOf f.expBits f.fracBits neg := by
  simp only [infinity, pattern, infinityOf, Nat.add_comm f.fracBits f.expBits]; simp

/-- An infinity is its sign over the infinity's magnitude. -/
theorem infinityOf_sign (eb fb : Nat) (neg : Bool) :
    infinityOf eb fb neg = (if neg then 2 ^ (eb + fb) else 0) + infinityOf eb fb false := by simp [infinityOf]

/-- The greatest finite pattern is the one before the infinity. -/
theorem FpFormat.maxFinite_eq (f : FpFormat) (neg : Bool) (he : 2 ≤ f.expBits) :
    f.maxFinite neg + 1 = infinityOf f.expBits f.fracBits neg := by
  have P : 0 < 2 ^ f.fracBits := by positivity
  have Q : 2 ^ 2 ≤ 2 ^ f.expBits := Nat.pow_le_pow_right (by norm_num) he
  simp only [maxFinite, pattern, infinityOf, Nat.add_comm f.fracBits f.expBits]
  have : (2 ^ f.expBits - 1) * 2 ^ f.fracBits = (2 ^ f.expBits - 2) * 2 ^ f.fracBits + 2 ^ f.fracBits := by
    rw [← Nat.succ_mul]; congr 1; omega
  omega

/-- The bias in one form. -/
theorem FpFormat.bias_eq (f : FpFormat) : (f.bias : Int) = 2 ^ (f.expBits - 1) - 1 := by
  unfold bias
  rw [Nat.cast_sub Nat.one_le_two_pow]
  push_cast; ring

/-- The number of exponent fields, by the bias. -/
theorem FpFormat.expBits_pow (f : FpFormat) (he : 2 ≤ f.expBits) : ((2 ^ f.expBits : Nat) : Int) = 2 * f.bias + 2 := by
  rw [bias_eq]
  have : f.expBits = f.expBits - 1 + 1 := by omega
  conv_lhs => rw [this, pow_succ]
  push_cast; ring

/-- `magnitude_pattern` in the terms of a format. -/
theorem FpFormat.magnitude_eq (f : FpFormat) (he : 2 ≤ f.expBits) (K n : Nat) (h : K = 0 ∨ 2 ^ f.fracBits ≤ n)
    (hn : n ≤ 2 ^ (f.fracBits + 1)) (hb : f.qmin + K ≤ f.emax - f.fracBits) :
    magnitude f.expBits f.fracBits (K * 2 ^ f.fracBits + n) = n * (2 : ℚ) ^ (f.qmin + K) := by
  have B := f.bias_eq
  have E := f.expBits_pow he
  rw [magnitude_pattern _ _ _ _ h hn, ← B]
  · congr 2
  · have : K + 2 ≤ 2 ^ f.expBits - 1 := by
      unfold qmin emin emax at hb; omega
    calc K * 2 ^ f.fracBits + n ≤ K * 2 ^ f.fracBits + 2 * 2 ^ f.fracBits := by rw [pow_succ] at hn; omega
      _ = (K + 2) * 2 ^ f.fracBits := by ring
      _ ≤ _ := Nat.mul_le_mul_right _ this

/-- R311's formula on an infinity. -/
theorem FpFormat.magnitude_infinity (f : FpFormat) (he : 2 ≤ f.expBits) :
    magnitude f.expBits f.fracBits (infinityOf f.expBits f.fracBits false) = 2 ^ (f.emax + 1) := by
  have two : (2 : ℚ) ≠ 0 := by norm_num
  have E := f.expBits_pow he
  have Q : 2 ^ 2 ≤ 2 ^ f.expBits := Nat.pow_le_pow_right (by norm_num) he
  have := f.magnitude_eq he (2 ^ f.expBits - 3) (2 ^ (f.fracBits + 1)) (.inr (by rw [pow_succ]; omega)) le_rfl
    (by unfold qmin emin emax; omega)
  have e : (2 ^ f.expBits - 3) * 2 ^ f.fracBits + 2 ^ (f.fracBits + 1) = infinityOf f.expBits f.fracBits false := by
    have : 2 ^ f.expBits - 1 = 2 ^ f.expBits - 3 + 2 := by omega
    simp only [infinityOf, this, pow_succ]; simp; ring
  rw [e] at this
  rw [this]
  push_cast
  rw [← zpow_natCast, ← zpow_add₀ two]
  congr 1
  unfold qmin emin emax; push_cast; omega

/-- Just below the infinity. -/
theorem FpFormat.magnitude_greatest (f : FpFormat) (he : 2 ≤ f.expBits) :
    magnitude f.expBits f.fracBits (infinityOf f.expBits f.fracBits false - 1) =
      (2 ^ (f.fracBits + 1) - 1) * 2 ^ (f.emax - f.fracBits) := by
  have E := f.expBits_pow he
  have Q : 2 ^ 2 ≤ 2 ^ f.expBits := Nat.pow_le_pow_right (by norm_num) he
  have P : 0 < 2 ^ f.fracBits := by positivity
  have := f.magnitude_eq he (2 ^ f.expBits - 3) (2 ^ (f.fracBits + 1) - 1) (.inr (by rw [pow_succ]; omega)) (by omega)
    (by unfold qmin emin emax; omega)
  have e : (2 ^ f.expBits - 3) * 2 ^ f.fracBits + (2 ^ (f.fracBits + 1) - 1) = infinityOf f.expBits f.fracBits false - 1 := by
    have : 2 ^ f.expBits - 1 = 2 ^ f.expBits - 3 + 2 := by omega
    simp only [infinityOf, this, pow_succ, Nat.add_mul]; simp; omega
  rw [e] at this
  rw [this, Nat.cast_sub Nat.one_le_two_pow]
  push_cast
  congr 2
  unfold qmin emin emax; omega

/-- The magnitude of the least normal number (R311). -/
theorem FpFormat.magnitude_leastNormal (f : FpFormat) (he : 2 ≤ f.expBits) :
    magnitude f.expBits f.fracBits (2 ^ f.fracBits) = 2 ^ f.emin := by
  have two : (2 : ℚ) ≠ 0 := by norm_num
  have E := f.expBits_pow he
  have Q : 2 ^ 2 ≤ 2 ^ f.expBits := Nat.pow_le_pow_right (by norm_num) he
  have := f.magnitude_eq he 0 (2 ^ f.fracBits) (.inl rfl) (by rw [pow_succ]; omega) (by unfold qmin emin emax; omega)
  rw [show 0 * 2 ^ f.fracBits + 2 ^ f.fracBits = 2 ^ f.fracBits by ring] at this
  rw [this]
  push_cast
  rw [← zpow_natCast, ← zpow_add₀ two]
  congr 1
  unfold qmin; omega

/-- What is left of `FpFormat.round` when the unit and the rounded significand are named: a result in one formula, the
overflow, and the flags. -/
theorem FpFormat.round_cases (f : FpFormat) (rm : RoundingMode) (neg : Bool) (m : Nat) (e : Int) (sig : Nat) (inexact : Bool)
    (h : roundToUnit rm neg m e (f.unitOf m e) = (sig, inexact)) :
    (f.emax - f.fracBits < (if sig = 2 ^ (f.fracBits + 1) then f.unitOf m e + 1 else f.unitOf m e) →
      f.round rm neg m e = f.overflow rm neg) ∧
    (¬ f.emax - f.fracBits < (if sig = 2 ^ (f.fracBits + 1) then f.unitOf m e + 1 else f.unitOf m e) →
      (sig < 2 ^ f.fracBits → f.unitOf m e = f.qmin) →
      (f.round rm neg m e).1 = (if neg then 2 ^ (f.expBits + f.fracBits) else 0) +
        ((f.unitOf m e - f.qmin).toNat * 2 ^ f.fracBits + sig) ∧
      (f.round rm neg m e).2 = fpFlags false false false (inexact && f.isTiny rm neg m e (e + m.log2)) inexact) := by
  have P : 0 < 2 ^ f.fracBits := by positivity
  have U : f.qmin ≤ f.unitOf m e := by unfold unitOf; omega
  unfold FpFormat.round
  simp only [show max (e + (m.log2 : Int) - f.fracBits) f.qmin = f.unitOf m e from rfl, h, beq_iff_eq]
  by_cases c : sig = 2 ^ (f.fracBits + 1)
  · simp only [c, if_true]
    refine ⟨fun o => by rw [if_pos o], fun o _ => ?_⟩
    rw [if_neg o]
    refine ⟨?_, rfl⟩
    have : ¬ 2 ^ f.fracBits < 2 ^ f.fracBits := lt_irrefl _
    simp only [this, if_false, pattern, Nat.sub_self, Nat.add_zero, Nat.add_comm f.fracBits f.expBits]
    have : (f.unitOf m e + 1 - f.qmin + 1).toNat = (f.unitOf m e - f.qmin).toNat + 2 := by omega
    rw [this, pow_succ]
    ring
  · simp only [c, if_false]
    refine ⟨fun o => by rw [if_pos o], fun o z => ?_⟩
    rw [if_neg o]
    refine ⟨?_, rfl⟩
    split
    · next lt => simp [pattern, z lt, Nat.add_comm f.fracBits f.expBits]
    · simp only [pattern, Nat.add_comm f.fracBits f.expBits]
      have : (f.unitOf m e - f.qmin + 1).toNat = (f.unitOf m e - f.qmin).toNat + 1 := by omega
      rw [this, Nat.add_mul]
      omega

/-- What the exact value need be compared with: the multiples of half the unit (for a power, their powers). -/
def agreesOnHalves (f : FpFormat) (m : Nat) (e : Int) (k : Nat) (y : ℚ) : Prop :=
  ∀ n : Nat, (((n : ℚ) * 2 ^ (f.unitOf m e - 1)) ^ k < y ↔ (n : ℚ) * 2 ^ (f.unitOf m e - 1) < m * 2 ^ e) ∧
    (((n : ℚ) * 2 ^ (f.unitOf m e - 1)) ^ k = y ↔ (n : ℚ) * 2 ^ (f.unitOf m e - 1) = m * 2 ^ e)

/-- The five flags by their bits (10_state.md R35). -/
theorem fpFlags_bits (nv dz o u nx : Bool) : (fpFlags nv dz o u nx).getLsbD 4 = nv ∧ (fpFlags nv dz o u nx).getLsbD 3 = dz ∧
    (fpFlags nv dz o u nx).getLsbD 2 = o ∧ (fpFlags nv dz o u nx).getLsbD 1 = u ∧ (fpFlags nv dz o u nx).getLsbD 0 = nx := by
  cases nv <;> cases dz <;> cases o <;> cases u <;> cases nx <;> decide

/-- A tiny result is below the normal numbers; an inexact one below the greatest subnormal is tiny (log 10). -/
theorem FpFormat.isTiny_spec (f : FpFormat) (rm : RoundingMode) (neg : Bool) (m : Nat) (hm : m ≠ 0) (e : Int) :
    (f.isTiny rm neg m e (e + m.log2) = true → (m : ℚ) * 2 ^ e < 2 ^ f.emin) ∧
    ((m : ℚ) * 2 ^ e < 2 ^ f.emin - 2 ^ f.qmin → f.isTiny rm neg m e (e + m.log2) = true) := by
  have two : (2 : ℚ) ≠ 0 := by norm_num
  obtain ⟨a, b⟩ := log2_bounds m hm e
  constructor
  · intro h
    unfold isTiny at h
    split at h
    · exact lt_of_lt_of_le b (zpow_le_zpow_right₀ (by norm_num) (by omega))
    · cases h
  · intro h
    have pos : (0 : ℚ) < 2 ^ f.qmin := by positivity
    have top : e + (m.log2 : Int) < f.emin := by
      by_contra c
      have : (2 : ℚ) ^ f.emin ≤ 2 ^ (e + (m.log2 : Int)) := zpow_le_zpow_right₀ (by norm_num) (by omega)
      linarith
    unfold isTiny
    rw [if_pos top, if_neg]
    rintro ⟨t, r⟩
    obtain ⟨quo, up, h1, h2, h3, h4, h5⟩ := roundToUnit_spec rm neg m e (e + m.log2 - f.fracBits)
    rw [r] at h1
    have q : 2 ^ (f.fracBits + 1) ≤ quo + 1 := by split at h1 <;> omega
    have q' : (2 : ℚ) ^ (f.fracBits + 1) ≤ quo + 1 := by exact_mod_cast q
    have eU : (2 : ℚ) ^ f.emin = 2 ^ (f.fracBits + 1) * 2 ^ (e + m.log2 - f.fracBits) := by
      rw [← zpow_natCast, ← zpow_add₀ two]; congr 1; push_cast; omega
    have eq : (2 : ℚ) ^ f.qmin = 2 * 2 ^ (e + m.log2 - f.fracBits) := by
      rw [show f.qmin = 1 + (e + m.log2 - f.fracBits) by unfold qmin; omega, zpow_add₀ two, zpow_one]
    have pu : (0 : ℚ) < 2 ^ (e + m.log2 - f.fracBits) := by positivity
    rw [eU, eq] at h
    nlinarith

/-- A unit is twice its half. -/
theorem unit_half (q : Int) : (2 : ℚ) ^ q = 2 * 2 ^ (q - 1) := by
  have two : (2 : ℚ) ≠ 0 := by norm_num
  have := zpow_add₀ two 1 (q - 1)
  rw [show 1 + (q - 1) = q by ring, zpow_one] at this
  exact this

/-- Compared with the multiples of the unit. -/
theorem agreesOnHalves_unit {f : FpFormat} {m : Nat} {e : Int} {k : Nat} {y : ℚ} (hy : agreesOnHalves f m e k y) (n : Nat) :
    (((n : ℚ) * 2 ^ f.unitOf m e) ^ k < y ↔ (n : ℚ) * 2 ^ f.unitOf m e < m * 2 ^ e) ∧
      (((n : ℚ) * 2 ^ f.unitOf m e) ^ k = y ↔ (n : ℚ) * 2 ^ f.unitOf m e = m * 2 ^ e) := by
  have := hy (2 * n)
  rwa [show ((2 * n : Nat) : ℚ) * 2 ^ (f.unitOf m e - 1) = n * 2 ^ f.unitOf m e by
    rw [unit_half (f.unitOf m e)]; push_cast; ring] at this

/-- Compared with the points halfway between them. -/
theorem agreesOnHalves_half {f : FpFormat} {m : Nat} {e : Int} {k : Nat} {y : ℚ} (hy : agreesOnHalves f m e k y) (n : Nat) :
    ((((n : ℚ) + 1 / 2) * 2 ^ f.unitOf m e) ^ k < y ↔ ((n : ℚ) + 1 / 2) * 2 ^ f.unitOf m e < m * 2 ^ e) ∧
      ((((n : ℚ) + 1 / 2) * 2 ^ f.unitOf m e) ^ k = y ↔ ((n : ℚ) + 1 / 2) * 2 ^ f.unitOf m e = m * 2 ^ e) := by
  have := hy (2 * n + 1)
  rwa [show ((2 * n + 1 : Nat) : ℚ) * 2 ^ (f.unitOf m e - 1) = ((n : ℚ) + 1 / 2) * 2 ^ f.unitOf m e by
    rw [unit_half (f.unitOf m e)]; push_cast; ring] at this

/-- `FpFormat.round_spec` where the magnitude has reached that of an infinity. -/
theorem FpFormat.round_spec_big (f : FpFormat) (he : 2 ≤ f.expBits) (rm : RoundingMode) (neg : Bool)
    (m : Nat) (hm : m ≠ 0) (e : Int) (k : Nat) (hk : 1 ≤ k) (y : ℚ) (hy : agreesOnHalves f m e k y)
    (big : f.emax - f.fracBits < f.unitOf m e) :
    roundsOnce f.expBits f.fracBits rm neg k y (f.round rm neg m e).1 (f.round rm neg m e).2 := by
  have two : (2 : ℚ) ≠ 0 := by norm_num
  have P : 0 < 2 ^ f.fracBits := by positivity
  have k0 : k ≠ 0 := by omega
  have Q4 : 2 ^ 2 ≤ 2 ^ f.expBits := Nat.pow_le_pow_right (by norm_num) he
  have E := f.expBits_pow he
  obtain ⟨La, Lb⟩ := log2_bounds m hm e
  have cmp := agreesOnHalves_unit hy
  have ov := (f.round_cases rm neg m e _ _ rfl).1 (by split <;> omega)
  have top : f.emax + 1 ≤ e + m.log2 := by
    have : f.qmin ≤ f.emax - f.fracBits := by unfold qmin emin emax; omega
    unfold unitOf at big; omega
  have uq : f.unitOf m e = e + m.log2 - f.fracBits := by
    have : f.qmin ≤ f.emax - f.fracBits := by unfold qmin emin emax; omega
    unfold unitOf at big ⊢; omega
  -- 2^top is a multiple of the unit
  have yle : ((2 : ℚ) ^ (e + m.log2)) ^ k ≤ y := by
    have c := cmp (2 ^ f.fracBits)
    have e2 : ((2 ^ f.fracBits : Nat) : ℚ) * 2 ^ f.unitOf m e = 2 ^ (e + m.log2) := by
      rw [pow_cast_zpow, ← zpow_add₀ two]; congr 1; rw [uq]; ring
    rw [e2] at c
    rcases lt_or_eq_of_le La with l | l
    · exact (c.1.mpr l).le
    · exact (c.2.mpr l).le
  have infle : (2 : ℚ) ^ (f.emax + 1) ≤ 2 ^ (e + m.log2) := zpow_le_zpow_right₀ (by norm_num) top
  have Minf := f.magnitude_infinity he
  have Mg := f.magnitude_greatest he
  have inf1 : 1 ≤ infinityOf f.expBits f.fracBits false := by
    simp only [infinityOf]
    have : 1 ≤ 2 ^ f.expBits - 1 := by omega
    have := Nat.mul_le_mul this P
    simp; omega
  have gl : magnitude f.expBits f.fracBits (infinityOf f.expBits f.fracBits false - 1) < 2 ^ (f.emax + 1) := by
    rw [Mg, show f.emax + 1 = ((f.fracBits + 1 : Nat) : Int) + (f.emax - f.fracBits) by push_cast; ring, zpow_add₀ two ((f.fracBits + 1 : Nat) : Int),
      zpow_natCast]
    exact mul_lt_mul_of_pos_right (by linarith) (by positivity)
  have g0 : (0 : ℚ) ≤ magnitude f.expBits f.fracBits (infinityOf f.expBits f.fracBits false - 1) := by
    rw [Mg]
    have : (1 : ℚ) ≤ 2 ^ (f.fracBits + 1) := one_le_pow₀ (by norm_num)
    have : (0 : ℚ) < 2 ^ (f.emax - f.fracBits) := by positivity
    nlinarith
  have gk : magnitude f.expBits f.fracBits (infinityOf f.expBits f.fracBits false - 1) ^ k < y :=
    lt_of_lt_of_le (pow_lt_pow_left₀ (lt_of_lt_of_le gl infle) g0 k0) yle
  have ik : magnitude f.expBits f.fracBits (infinityOf f.expBits f.fracBits false) ^ k ≤ y := by
    rw [Minf]; exact le_trans (pow_le_pow_left₀ (by positivity) infle k) yle
  have hk2 : ((magnitude f.expBits f.fracBits (infinityOf f.expBits f.fracBits false - 1) +
      magnitude f.expBits f.fracBits (infinityOf f.expBits f.fracBits false)) / 2) ^ k < y := by
    refine lt_of_lt_of_le (pow_lt_pow_left₀ (lt_of_lt_of_le ?_ infle) (by rw [Minf]; positivity) k0) yle
    rw [Minf]; linarith
  refine ⟨infinityOf f.expBits f.fracBits false - 1, by omega, gk.le, fun h => by omega, ?_⟩
  have s1 : infinityOf f.expBits f.fracBits false - 1 + 1 = infinityOf f.expBits f.fracBits false := by omega
  have mf : f.maxFinite neg = (if neg then 2 ^ (f.expBits + f.fracBits) else 0) + (infinityOf f.expBits f.fracBits false - 1) := by
    have a := f.maxFinite_eq neg he
    have b := infinityOf_sign f.expBits f.fracBits neg
    omega
  have si := infinityOf_sign f.expBits f.fracBits neg
  have fl : (f.round rm neg m e).2 = fpFlags false false true false true := by rw [ov]; rfl
  obtain ⟨f4, f3, f2, f1, f0⟩ := fpFlags_bits false false true false true
  have leastNormal : ¬ (infinityOf f.expBits f.fracBits false - 1 + 1 < 2 ^ f.fracBits) := by
    rw [s1]; simp only [infinityOf]
    have : 1 ≤ 2 ^ f.expBits - 1 := by omega
    have := Nat.mul_le_mul_right (2 ^ f.fracBits) this
    simp; omega
  rw [fl, s1]
  refine ⟨?_, ?_, f4, f3, by simp [f0, gk.ne], by simp only [f2, true_iff]; exact .inr ik, fun h => absurd h (by rw [f1]; decide),
    fun _ h => absurd (by rw [s1]; exact h) leastNormal⟩
  · intro a
    rw [ov]
    simp only [overflow, f.infinity_eq]
    cases rm <;> simp only [takesUpper] at a
    · simp [si]
    · simp [a.1, infinityOf_sign f.expBits f.fracBits true]
    · simp [a.1]
    · simp [si]
  · intro a
    rw [ov]
    simp only [overflow]
    cases rm <;> simp only [takesUpper] at a
    · exact absurd (.inl hk2) a
    · simpa using mf
    · have : neg = false := by
        rcases Bool.eq_false_or_eq_true neg with h | h
        · exact absurd ⟨h, gk.ne⟩ a
        · exact h
      subst this; simpa using mf
    · have : neg = true := by
        rcases Bool.eq_false_or_eq_true neg with h | h
        · exact h
        · exact absurd ⟨h, gk.ne⟩ a
      subst this; simpa using mf
    · exact absurd (.inl hk2) a

/-- `FpFormat.round_spec` where the unit is that of a number of the format. -/
theorem FpFormat.round_spec_small (f : FpFormat) (he : 2 ≤ f.expBits) (hb : 1 ≤ f.fracBits) (rm : RoundingMode) (neg : Bool)
    (m : Nat) (hm : m ≠ 0) (e : Int) (k : Nat) (y : ℚ) (hy : agreesOnHalves f m e k y)
    (big : f.unitOf m e ≤ f.emax - f.fracBits) :
    roundsOnce f.expBits f.fracBits rm neg k y (f.round rm neg m e).1 (f.round rm neg m e).2 := by
  have two : (2 : ℚ) ≠ 0 := by norm_num
  have E := f.expBits_pow he
  obtain ⟨quo, up, h1, h2, h3, h4, h5⟩ := roundToUnit_spec rm neg m e (f.unitOf m e)
  obtain ⟨b1, b2⟩ := f.quo_bounds m hm e quo h2 h3
  have U : f.qmin ≤ f.unitOf m e := by unfold unitOf; omega
  have pu : (0 : ℚ) < 2 ^ f.unitOf m e := by positivity
  have cmp := agreesOnHalves_unit hy
  have cmpH := agreesOnHalves_half hy
  have rt : roundToUnit rm neg m e (f.unitOf m e) = (if up then quo + 1 else quo, (roundToUnit rm neg m e (f.unitOf m e)).2) :=
    Prod.ext h1 rfl
  generalize hin : (roundToUnit rm neg m e (f.unitOf m e)).2 = inexact at *
  have sigle : (if up then quo + 1 else quo) ≤ 2 ^ (f.fracBits + 1) := by split <;> omega
  obtain ⟨rc1, rc2⟩ := f.round_cases rm neg m e _ inexact rt
  obtain ⟨K, hK⟩ : ∃ K : Nat, f.unitOf m e = f.qmin + K := ⟨(f.unitOf m e - f.qmin).toNat, by omega⟩
  have hKb : f.qmin + K ≤ f.emax - f.fracBits := by omega
  have sub : K = 0 ∨ 2 ^ f.fracBits ≤ quo := by
    by_cases c : K = 0
    · exact .inl c
    · exact .inr (b2 (by omega))
  have M0 := f.magnitude_eq he K quo sub (by omega) hKb
  have M1 := f.magnitude_eq he K (quo + 1) (by omega) (by omega) hKb
  rw [← hK] at M0 M1
  have K2 : K + 2 ≤ 2 ^ f.expBits - 1 := by unfold qmin emin emax at hKb; omega
  have infv : infinityOf f.expBits f.fracBits false = (2 ^ f.expBits - 1) * 2 ^ f.fracBits := by simp [infinityOf]
  have tlt : K * 2 ^ f.fracBits + quo < infinityOf f.expBits f.fracBits false := by
    rw [infv]
    calc K * 2 ^ f.fracBits + quo < K * 2 ^ f.fracBits + 2 * 2 ^ f.fracBits := by rw [pow_succ] at b1; omega
      _ = (K + 2) * 2 ^ f.fracBits := by ring
      _ ≤ _ := Nat.mul_le_mul_right _ K2
  have s1 : K * 2 ^ f.fracBits + quo + 1 = K * 2 ^ f.fracBits + (quo + 1) := by ring
  have eq0 : magnitude f.expBits f.fracBits (K * 2 ^ f.fracBits + quo) ^ k ≠ y ↔ inexact = true := by
    rw [M0, h4]; exact not_congr (cmp quo).2
  have le0 : magnitude f.expBits f.fracBits (K * 2 ^ f.fracBits + quo) ^ k ≤ y := by
    rw [M0]
    rcases lt_or_eq_of_le h2 with l | l
    · exact ((cmp quo).1.mpr l).le
    · exact ((cmp quo).2.mpr l).le
  have lt1 : y < magnitude f.expBits f.fracBits (K * 2 ^ f.fracBits + (quo + 1)) ^ k := by
    rw [M1]
    have c := cmp (quo + 1)
    by_contra n
    push Not at n
    have h3' : (m : ℚ) * 2 ^ e < ((quo + 1 : Nat) : ℚ) * 2 ^ f.unitOf m e := by push_cast; exact h3
    rcases lt_or_eq_of_le n with l | l
    · linarith [c.1.mp l]
    · linarith [c.2.mp l]
  have hf : (magnitude f.expBits f.fracBits (K * 2 ^ f.fracBits + quo) +
      magnitude f.expBits f.fracBits (K * 2 ^ f.fracBits + (quo + 1))) / 2 = (quo + 1 / 2) * 2 ^ f.unitOf m e := by
    rw [M0, M1]; push_cast; ring
  have away : takesUpper rm neg (magnitude f.expBits f.fracBits (K * 2 ^ f.fracBits + quo) ^ k ≠ y)
      (((quo + 1 / 2) * (2 : ℚ) ^ f.unitOf m e) ^ k < y) (((quo + 1 / 2) * (2 : ℚ) ^ f.unitOf m e) ^ k = y)
      ((K * 2 ^ f.fracBits + quo) % 2 = 1) ↔ up = true := by
    have par : (K * 2 ^ f.fracBits + quo) % 2 = quo % 2 := by
      obtain ⟨b, hb'⟩ : ∃ b, 2 ^ f.fracBits = 2 * b := ⟨2 ^ (f.fracBits - 1), by rw [← pow_succ', Nat.sub_add_cancel hb]⟩
      rw [hb', show K * (2 * b) = 2 * (K * b) by ring, Nat.mul_add_mod]
    rw [h5, eq0, (cmpH quo).1, (cmpH quo).2, par]
    unfold roundsAway
    rw [h4]
  have emin_eq : (2 : ℚ) ^ f.emin = ((2 ^ f.fracBits : Nat) : ℚ) * 2 ^ f.qmin := by
    rw [pow_cast_zpow, ← zpow_add₀ two]; congr 1; unfold qmin; ring
  have above : quo * (2 : ℚ) ^ f.unitOf m e < 2 ^ f.emin → K = 0 := by
    intro h
    rcases sub with z | z
    · exact z
    · exfalso
      have z' : ((2 ^ f.fracBits : Nat) : ℚ) ≤ quo := by exact_mod_cast z
      have : (2 : ℚ) ^ f.qmin ≤ 2 ^ f.unitOf m e := zpow_le_zpow_right₀ (by norm_num) U
      have p0 : (0 : ℚ) < 2 ^ f.qmin := by positivity
      have c0 : (0 : ℚ) < ((2 ^ f.fracBits : Nat) : ℚ) := by positivity
      rw [emin_eq] at h
      nlinarith
  refine ⟨K * 2 ^ f.fracBits + quo, tlt, le0, fun _ => by rw [s1]; exact lt1, ?_⟩
  simp only [s1, hf]
  rw [away]
  have uK : (f.unitOf m e - f.qmin).toNat = K := by omega
  by_cases ovc : f.emax - f.fracBits < (if (if up then quo + 1 else quo) = 2 ^ (f.fracBits + 1) then f.unitOf m e + 1 else f.unitOf m e)
  · -- rounded up to the infinity
    have ov := rc1 ovc
    have upt : up = true := by
      by_contra c
      have : (if up then quo + 1 else quo) ≠ 2 ^ (f.fracBits + 1) := by simp [c]; omega
      rw [if_neg this] at ovc; omega
    subst upt
    simp only [if_true] at ovc
    have c1 : quo + 1 = 2 ^ (f.fracBits + 1) := by
      by_contra c
      rw [if_neg c] at ovc; omega
    have KK : K + 2 = 2 ^ f.expBits - 1 := by
      rw [if_pos c1] at ovc; unfold qmin emin emax at *; omega
    have ti : K * 2 ^ f.fracBits + (quo + 1) = infinityOf f.expBits f.fracBits false := by
      rw [infv, c1, ← KK, pow_succ]; ring
    have re : f.round rm neg m e = (f.infinity neg, fpFlags false false true false true) := by
      rw [ov]
      have r := h5.mp rfl
      unfold roundsAway at r
      simp only [overflow]
      cases rm <;> simp only [takesUpper] at r <;> first | simp [r.1] | simp
    obtain ⟨f4, f3, f2, f1, f0⟩ := fpFlags_bits false false true false true
    have ne : magnitude f.expBits f.fracBits (K * 2 ^ f.fracBits + quo) ^ k ≠ y := by
      rw [eq0]
      by_contra c
      have := mt h4.mpr c
      push Not at this
      have r := h5.mp rfl
      unfold roundsAway at r
      have a : (quo : ℚ) * 2 ^ f.unitOf m e < (quo + 1 / 2) * 2 ^ f.unitOf m e := mul_lt_mul_of_pos_right (by linarith) pu
      cases rm <;> simp only [takesUpper, this] at r
      · rcases r with r | r
        · linarith
        · linarith [r.1]
      · exact r.2 rfl
      · exact r.2 rfl
      · rcases r with r | r <;> linarith
    rw [re]
    refine ⟨fun _ => ?_, fun h => absurd rfl h, f4, f3, ?_, ?_, fun h => absurd h (by rw [f1]; decide), fun _ h => ?_⟩
    · rw [f.infinity_eq, infinityOf_sign, ti]
    · simp [f0, ne]
    · simp only [f2, f.infinity_eq, true_or]
    · exfalso
      have : 1 ≤ K := by omega
      have := Nat.mul_le_mul_right (2 ^ f.fracBits) this
      omega
  · obtain ⟨rr, rf⟩ := rc2 ovc (by
      intro h
      rcases sub with z | z
      · omega
      · exfalso; split at h <;> omega)
    rw [uK] at rr
    have siglt : K * 2 ^ f.fracBits + (if up then quo + 1 else quo) < infinityOf f.expBits f.fracBits false := by
      rw [infv]
      by_cases c : (if up then quo + 1 else quo) = 2 ^ (f.fracBits + 1)
      · rw [if_pos c] at ovc
        have : K + 3 ≤ 2 ^ f.expBits - 1 := by unfold qmin emin emax at *; omega
        have := Nat.mul_le_mul_right (2 ^ f.fracBits) this
        rw [c, pow_succ]
        nlinarith
      · have := Nat.mul_le_mul_right (2 ^ f.fracBits) K2
        rw [pow_succ] at c sigle
        nlinarith [lt_of_le_of_ne sigle c]
    obtain ⟨f4, f3, f2, f1, f0⟩ := fpFlags_bits false false false (inexact && f.isTiny rm neg m e (e + m.log2)) inexact
    obtain ⟨ty1, ty2⟩ := f.isTiny_spec rm neg m hm e
    rw [rf]
    refine ⟨fun h => ?_, fun h => ?_, f4, f3, by rw [f0]; exact eq0.symm, ?_, fun h => ?_, fun hi h => ?_⟩
    · rw [rr, h]; simp
    · rw [rr]; simp [h]
    · rw [f2]
      simp only [Bool.false_eq_true, false_iff, not_or, not_le]
      refine ⟨?_, lt_of_lt_of_le lt1 ?_⟩
      · rw [rr, infinityOf_sign]; omega
      · rw [M1, f.magnitude_infinity he]
        refine pow_le_pow_left₀ (by positivity) ?_ k
        have q1 : ((quo + 1 : Nat) : ℚ) ≤ ((2 ^ (f.fracBits + 1) : Nat) : ℚ) := by exact_mod_cast b1
        have e1 : (2 : ℚ) ^ f.unitOf m e ≤ 2 ^ (f.emax - f.fracBits) := zpow_le_zpow_right₀ (by norm_num) big
        calc ((quo + 1 : Nat) : ℚ) * 2 ^ f.unitOf m e ≤ ((2 ^ (f.fracBits + 1) : Nat) : ℚ) * 2 ^ (f.emax - f.fracBits) :=
              mul_le_mul q1 e1 pu.le (by positivity)
          _ = 2 ^ (f.emax + 1) := by
              rw [pow_cast_zpow, ← zpow_add₀ two]; congr 1; push_cast; ring
    · rw [f1, Bool.and_eq_true] at h
      refine ⟨eq0.mpr h.1, ?_⟩
      have Y := ty1 h.2
      have K0 := above (lt_of_le_of_lt h2 Y)
      have uq : f.unitOf m e = f.qmin := by omega
      rw [f.magnitude_leastNormal he, emin_eq, ← uq]
      rw [emin_eq, ← uq] at Y
      have c := cmp (2 ^ f.fracBits)
      by_contra n
      push Not at n
      rcases lt_or_eq_of_le n with l | l
      · linarith [c.1.mp l]
      · linarith [c.2.mp l]
    · rw [f1, Bool.and_eq_true]
      refine ⟨eq0.mp hi, ty2 ?_⟩
      have K0 : K = 0 := by
        by_contra c
        have : 1 ≤ K := by omega
        have := Nat.mul_le_mul_right (2 ^ f.fracBits) this
        omega
      have uq : f.unitOf m e = f.qmin := by omega
      subst K0
      have q2 : ((quo + 2 : Nat) : ℚ) ≤ ((2 ^ f.fracBits : Nat) : ℚ) := by
        have : quo + 2 ≤ 2 ^ f.fracBits := by omega
        exact_mod_cast this
      rw [emin_eq]
      rw [uq] at h3 pu
      push_cast at q2 ⊢
      have q3 : (quo : ℚ) + 1 ≤ 2 ^ f.fracBits - 1 := by linarith
      have := mul_le_mul_of_nonneg_right q3 pu.le
      linarith

/-- The intended rounding is R313's, of every value that lies among the halves of the units as `m x 2^e` does. -/
theorem FpFormat.round_spec (f : FpFormat) (he : 2 ≤ f.expBits) (hb : 1 ≤ f.fracBits) (rm : RoundingMode) (neg : Bool)
    (m : Nat) (hm : m ≠ 0) (e : Int) (k : Nat) (hk : 1 ≤ k) (y : ℚ) (hy : agreesOnHalves f m e k y) :
    roundsOnce f.expBits f.fracBits rm neg k y (f.round rm neg m e).1 (f.round rm neg m e).2 := by
  by_cases big : f.emax - f.fracBits < f.unitOf m e
  · exact f.round_spec_big he rm neg m hm e k hk y hy big
  · exact f.round_spec_small he hb rm neg m hm e k y hy (not_lt.mp big)

/-! ### Exact values, quotients and roots -/

/-- A finite number that its sign, significand and exponent give. -/
def signedValue (neg : Bool) (m : Nat) (e : Int) : ℚ := if neg then -((m : ℚ) * 2 ^ e) else m * 2 ^ e

/-- A signed value as an integer times a power of two. -/
theorem signedValue_eq (neg : Bool) (m : Nat) (e : Int) : signedValue neg m e = (signedMag neg m : Int) * (2 : ℚ) ^ e := by
  cases neg <;> simp [signedValue, signedMag]

/-- It is 0 when its significand is. -/
theorem signedValue_eq_zero (neg : Bool) (m : Nat) (e : Int) : signedValue neg m e = 0 ↔ m = 0 := by
  have : (2 : ℚ) ^ e ≠ 0 := by positivity
  cases neg <;> simp [signedValue, this]

/-- Its magnitude. -/
theorem abs_signedValue (neg : Bool) (m : Nat) (e : Int) : |signedValue neg m e| = m * 2 ^ e := by
  have : (0 : ℚ) ≤ m * 2 ^ e := by positivity
  cases neg <;> simp [signedValue, abs_of_nonneg this]

/-- Its sign. -/
theorem signedValue_neg (neg : Bool) (m : Nat) (e : Int) (h : m ≠ 0) : decide (signedValue neg m e < 0) = neg := by
  have : (0 : ℚ) < m * 2 ^ e := by positivity
  cases neg <;> simp [signedValue] <;> [exact this.le; exact this]

/-- `m x 2^e` itself lies where it lies. -/
theorem agreesOnHalves_exact (f : FpFormat) (m : Nat) (e : Int) : agreesOnHalves f m e 1 (m * 2 ^ e) := fun n => by simp

/-- A nonzero exact value is rounded once (R313). -/
theorem FpFormat.round_number (f : FpFormat) (he : 2 ≤ f.expBits) (hb : 1 ≤ f.fracBits) (rm : RoundingMode) (neg zeroNeg : Bool)
    (m : Nat) (hm : m ≠ 0) (e : Int) :
    roundsNumber f.expBits f.fracBits rm (signedValue neg m e) zeroNeg (f.round rm neg m e).1 (f.round rm neg m e).2 := by
  refine ⟨fun _ => ?_, fun h => absurd ((signedValue_eq_zero _ _ _).mp h) hm⟩
  rw [signedValue_neg _ _ _ hm, abs_signedValue]
  exact f.round_spec he hb rm neg m hm e 1 le_rfl _ (agreesOnHalves_exact f m e)

/-- A zero is its sign alone. -/
theorem FpFormat.zero_eq (f : FpFormat) (neg : Bool) : f.zero neg = if neg then 2 ^ (f.expBits + f.fracBits) else 0 := by
  simp [zero, pattern, Nat.add_comm]

/-- An exact value, zero or not, is rounded once (R313). -/
theorem FpFormat.roundInt_number (f : FpFormat) (he : 2 ≤ f.expBits) (hb : 1 ≤ f.fracBits) (rm : RoundingMode) (z e : Int)
    (zeroNeg : Bool) :
    roundsNumber f.expBits f.fracBits rm (z * 2 ^ e) zeroNeg (f.roundInt rm z e zeroNeg).1 (f.roundInt rm z e zeroNeg).2 := by
  unfold roundInt
  by_cases h : z = 0
  · subst h
    simp [roundsNumber, FpFormat.zero_eq, noFlags]
  · rw [if_neg h]
    have n : z.natAbs ≠ 0 := by omega
    have e1 : (z : ℚ) * 2 ^ e = signedValue (decide (z < 0)) z.natAbs e := by
      rw [signedValue_eq]
      congr 2
      unfold signedMag
      by_cases hz : z < 0 <;> simp only [hz, decide_true, decide_false, if_true, Bool.false_eq_true, if_false] <;> omega
    rw [e1]
    exact f.round_number he hb rm _ _ _ n e

/-- A quotient or a root that keeps its integer part `quo` and one bit for the rest lies among the halves as the exact value
does, where it has enough bits. -/
theorem agreesOnHalves_sticky (f : FpFormat) (quo sticky : Nat) (e : Int) (k : Nat) (hk : k ≠ 0) (y : ℚ) (hs : sticky ≤ 1)
    (h0 : (quo * (2 : ℚ) ^ (e + 1)) ^ k ≤ y) (h1 : y < (((quo : ℚ) + 1) * 2 ^ (e + 1)) ^ k)
    (hz : sticky = 0 ↔ (quo * (2 : ℚ) ^ (e + 1)) ^ k = y) (hq : 2 ^ (f.fracBits + 2) ≤ 2 * quo + sticky) :
    agreesOnHalves f (2 * quo + sticky) e k y := by
  have two : (2 : ℚ) ≠ 0 := by norm_num
  intro n
  have lg : f.fracBits + 2 ≤ (2 * quo + sticky).log2 := (Nat.le_log2 (by have := Nat.one_le_two_pow (n := f.fracBits + 2); omega)).mpr hq
  obtain ⟨d, hd⟩ : ∃ d : Nat, f.unitOf (2 * quo + sticky) e - 1 = d + (e + 1) :=
    ⟨(f.unitOf (2 * quo + sticky) e - 1 - (e + 1)).toNat, by unfold FpFormat.unitOf; omega⟩
  have c : (n : ℚ) * 2 ^ (f.unitOf (2 * quo + sticky) e - 1) = ((n * 2 ^ d : Nat) : ℚ) * 2 ^ (e + 1) := by
    rw [hd, zpow_add₀ two, zpow_natCast]; push_cast; ring
  rw [c]
  generalize n * 2 ^ d = N
  have p : (0 : ℚ) < 2 ^ (e + 1) := by positivity
  have pe : (0 : ℚ) < 2 ^ e := by positivity
  have e1 : (2 : ℚ) ^ (e + 1) = 2 * 2 ^ e := by rw [zpow_add₀ two, zpow_one]; ring
  have r1 : (N : ℚ) * 2 ^ (e + 1) < ((2 * quo + sticky : Nat) : ℚ) * 2 ^ e ↔ 2 * N < 2 * quo + sticky := by
    rw [e1, ← mul_assoc, mul_lt_mul_iff_left₀ pe, mul_comm (N : ℚ)]
    exact_mod_cast Iff.rfl
  have r2 : (N : ℚ) * 2 ^ (e + 1) = ((2 * quo + sticky : Nat) : ℚ) * 2 ^ e ↔ 2 * N = 2 * quo + sticky := by
    rw [e1, ← mul_assoc, mul_left_inj' pe.ne', mul_comm (N : ℚ)]
    exact_mod_cast Iff.rfl
  rw [r1, r2]
  have N0 : (0 : ℚ) ≤ N * 2 ^ (e + 1) := by positivity
  rcases lt_trichotomy N quo with h | h | h
  · have : ((N : ℚ) * 2 ^ (e + 1)) ^ k < y := by
      refine lt_of_lt_of_le (pow_lt_pow_left₀ (mul_lt_mul_of_pos_right ?_ p) N0 hk) h0
      exact_mod_cast h
    refine ⟨⟨fun _ => by omega, fun _ => this⟩, ⟨fun h => absurd h this.ne, fun _ => by omega⟩⟩
  · subst h
    rw [← hz]
    refine ⟨⟨fun l => ?_, fun l => lt_of_le_of_ne h0 fun x => ?_⟩, by omega⟩
    · have : sticky ≠ 0 := fun x => absurd (hz.mp x) l.ne
      omega
    · have := hz.mpr x
      omega
  · have : y < ((N : ℚ) * 2 ^ (e + 1)) ^ k := by
      refine lt_of_lt_of_le h1 (pow_le_pow_left₀ (by positivity) (mul_le_mul_of_nonneg_right ?_ p.le) k)
      exact_mod_cast h
    refine ⟨⟨fun h => absurd h this.not_gt, fun _ => by omega⟩, ⟨fun h => absurd h this.ne', fun _ => by omega⟩⟩

/-- A quotient is rounded once (R250, R313). -/
theorem FpFormat.divFinite_number (f : FpFormat) (he : 2 ≤ f.expBits) (hb : 1 ≤ f.fracBits) (rm : RoundingMode)
    (n1 : Bool) (m1 : Nat) (e1 : Int) (n2 : Bool) (m2 : Nat) (e2 : Int) (h1 : m1 ≠ 0) (h2 : m2 ≠ 0) (zeroNeg : Bool) :
    roundsNumber f.expBits f.fracBits rm (signedValue n1 m1 e1 / signedValue n2 m2 e2) zeroNeg
      (f.divFinite rm (n1 != n2) m1 e1 m2 e2).1 (f.divFinite rm (n1 != n2) m1 e1 m2 e2).2 := by
  have two : (2 : ℚ) ≠ 0 := by norm_num
  have p1 : (0 : ℚ) < m1 * 2 ^ e1 := by positivity
  have p2 : (0 : ℚ) < m2 * 2 ^ e2 := by positivity
  have x0 : signedValue n1 m1 e1 / signedValue n2 m2 e2 ≠ 0 :=
    div_ne_zero (mt (signedValue_eq_zero _ _ _).mp h1) (mt (signedValue_eq_zero _ _ _).mp h2)
  refine ⟨fun _ => ?_, fun h => absurd h x0⟩
  have sg : decide (signedValue n1 m1 e1 / signedValue n2 m2 e2 < 0) = (n1 != n2) := by
    have := div_pos p1 p2
    cases n1 <;> cases n2 <;> simp only [signedValue, if_true, Bool.false_eq_true, if_false, neg_div, div_neg] <;>
      simp [this, this.le]
  rw [sg, abs_div, abs_signedValue, abs_signedValue]
  unfold divFinite
  simp only
  generalize hk : f.fracBits + 4 + m2.log2 = k
  have m2p : 0 < m2 := by omega
  have l2 := Nat.lt_log2_self (n := m2)
  have dm := Nat.div_add_mod (m1 * 2 ^ k) m2
  have ml := Nat.mod_lt (m1 * 2 ^ k) m2p
  have big : 2 ^ (f.fracBits + 3) ≤ m1 * 2 ^ k / m2 := by
    rw [Nat.le_div_iff_mul_le m2p]
    calc 2 ^ (f.fracBits + 3) * m2 ≤ 2 ^ (f.fracBits + 3) * 2 ^ (m2.log2 + 1) := Nat.mul_le_mul_left _ l2.le
      _ = 2 ^ k := by rw [← pow_add, ← hk]; congr 1; ring
      _ ≤ m1 * 2 ^ k := Nat.le_mul_of_pos_left _ (by omega)
  generalize m1 * 2 ^ k / m2 = quo at *
  generalize hr : m1 * 2 ^ k % m2 = rem at *
  have hbig : 2 ^ (f.fracBits + 2) ≤ 2 * quo := by
    rw [pow_succ] at big; omega
  have u : (2 : ℚ) ^ (e1 - e2 - k - 1 + 1) = 2 ^ e1 / 2 ^ e2 / 2 ^ k := by
    rw [show e1 - e2 - k - 1 + 1 = e1 - e2 - k by ring, zpow_sub₀ two, zpow_sub₀ two, zpow_natCast]
  have m2q : (0 : ℚ) < m2 := by exact_mod_cast m2p
  have val : (m1 : ℚ) * 2 ^ e1 / (m2 * 2 ^ e2) = ((m1 * 2 ^ k : Nat) : ℚ) / m2 * 2 ^ (e1 - e2 - k - 1 + 1) := by
    rw [u]; push_cast; field_simp
  have pu : (0 : ℚ) < 2 ^ (e1 - e2 - k - 1 + 1) := by positivity
  have one := Nat.one_le_two_pow (n := f.fracBits + 2)
  refine f.round_spec he hb rm _ _ (by omega) _ 1 le_rfl _ (agreesOnHalves_sticky f quo _ _ 1 one_ne_zero _ (by split <;> omega) ?_ ?_ ?_
    (by omega))
  · rw [pow_one, val]
    refine mul_le_mul_of_nonneg_right ?_ pu.le
    rw [le_div_iff₀ m2q]
    exact_mod_cast (by nlinarith : quo * m2 ≤ m1 * 2 ^ k)
  · rw [pow_one, val]
    refine mul_lt_mul_of_pos_right ?_ pu
    rw [div_lt_iff₀ m2q]
    exact_mod_cast (by nlinarith : m1 * 2 ^ k < (quo + 1) * m2)
  · rw [pow_one, val, mul_left_inj' pu.ne', eq_div_iff m2q.ne']
    have : ((quo : ℚ) * m2 = ((m1 * 2 ^ k : Nat) : ℚ)) ↔ quo * m2 = m1 * 2 ^ k := by exact_mod_cast Iff.rfl
    rw [this]
    by_cases r0 : rem = 0
    · simp only [r0, if_true, true_iff]; nlinarith
    · simp only [r0, if_false, one_ne_zero, false_iff]
      intro h
      apply r0
      nlinarith

/-- `isqrtFrom` finds the greatest number with its high part whose square fits. -/
theorem isqrtFrom_spec (n : Nat) : ∀ k r, r * r ≤ n → n < (r + 2 ^ k) * (r + 2 ^ k) →
    isqrtFrom n k r * isqrtFrom n k r ≤ n ∧ n < (isqrtFrom n k r + 1) * (isqrtFrom n k r + 1) := by
  intro k
  induction k with
  | zero => intro r h g; exact ⟨h, by simpa [isqrtFrom] using g⟩
  | succ k ih =>
    intro r h g
    unfold isqrtFrom
    split
    · next c => exact ih _ c (by rw [show r + 2 ^ k + 2 ^ k = r + 2 ^ (k + 1) by rw [pow_succ]; ring]; exact g)
    · next c => exact ih _ h (by omega)

/-- The integer square root. -/
theorem isqrt_spec (n : Nat) : isqrt n * isqrt n ≤ n ∧ n < (isqrt n + 1) * (isqrt n + 1) := by
  refine isqrtFrom_spec n _ 0 (Nat.zero_le _) ?_
  rw [Nat.zero_add, ← pow_add]
  refine lt_of_lt_of_le Nat.lt_log2_self (Nat.pow_le_pow_right (by norm_num) (by omega))

/-- A square root is rounded once (R252, R313). -/
theorem FpFormat.sqrtFinite_spec (f : FpFormat) (he : 2 ≤ f.expBits) (hb : 1 ≤ f.fracBits) (rm : RoundingMode) (m : Nat) (hm : m ≠ 0)
    (e : Int) :
    roundsOnce f.expBits f.fracBits rm false 2 (m * 2 ^ e) (f.sqrtFinite rm m e).1 (f.sqrtFinite rm m e).2 := by
  have two : (2 : ℚ) ≠ 0 := by norm_num
  unfold sqrtFinite
  simp only
  generalize hk : (if (e - ((2 * f.fracBits + 8 : Nat) : Int)) % 2 = 0 then 2 * f.fracBits + 8 else 2 * f.fracBits + 8 + 1) = k
  have kk : 2 * f.fracBits + 8 ≤ k := by split at hk <;> omega
  have even : (e - k) / 2 * 2 = e - k := by split at hk <;> omega
  obtain ⟨s1, s2⟩ := isqrt_spec (m * 2 ^ k)
  generalize isqrt (m * 2 ^ k) = root at *
  have big : 2 ^ (f.fracBits + 4) ≤ root := by
    by_contra c
    push Not at c
    have : (root + 1) * (root + 1) ≤ 2 ^ (f.fracBits + 4) * 2 ^ (f.fracBits + 4) := Nat.mul_le_mul c c
    have g : 2 ^ (f.fracBits + 4) * 2 ^ (f.fracBits + 4) ≤ 2 ^ k := by
      rw [← pow_add]; exact Nat.pow_le_pow_right (by norm_num) (by omega)
    have : 2 ^ k ≤ m * 2 ^ k := Nat.le_mul_of_pos_left _ (by omega)
    omega
  have hbig : 2 ^ (f.fracBits + 2) ≤ 2 * root := by
    have : 2 ^ (f.fracBits + 4) = 2 ^ (f.fracBits + 2) * 4 := by rw [pow_add, pow_add]; ring
    omega
  have sq : ∀ c : ℚ, (c * 2 ^ ((e - k) / 2 - 1 + 1)) ^ 2 = c * c * 2 ^ (e - (k : Int)) := by
    intro c
    rw [sub_add_cancel, mul_pow, ← zpow_natCast ((2 : ℚ) ^ _), ← zpow_mul]
    push_cast
    rw [even]; ring
  have val : (m : ℚ) * 2 ^ e = ((m * 2 ^ k : Nat) : ℚ) * 2 ^ (e - (k : Int)) := by
    rw [zpow_sub₀ two, zpow_natCast]; push_cast; field_simp
  have pu : (0 : ℚ) < 2 ^ (e - (k : Int)) := by positivity
  refine f.round_spec he hb rm _ _ (by have := Nat.one_le_two_pow (n := f.fracBits + 2); omega) _ 2 (by norm_num) _
    (agreesOnHalves_sticky f root _ _ 2 two_ne_zero _ (by split <;> omega) ?_ ?_ ?_ (by omega))
  · rw [sq, val]
    refine mul_le_mul_of_nonneg_right ?_ pu.le
    exact_mod_cast s1
  · rw [sq, val]
    refine mul_lt_mul_of_pos_right ?_ pu
    exact_mod_cast s2
  · rw [sq, val, mul_left_inj' pu.ne']
    have : ((root : ℚ) * root = ((m * 2 ^ k : Nat) : ℚ)) ↔ root * root = m * 2 ^ k := by exact_mod_cast Iff.rfl
    rw [this]
    split <;> simp_all

/-! ### What a finite pattern stands for -/

/-- A finite pattern unpacks to its number (R311). -/
theorem FpFormat.unpack_number (f : FpFormat) (n : Nat) (h : isFinite f.expBits f.fracBits n) :
    ∃ m e, f.unpack n = .finite (f.sign n) m e ∧ number f.expBits f.fracBits n = signedValue (f.sign n) m e := by
  have two : (2 : ℚ) ≠ 0 := by norm_num
  have P : 0 < 2 ^ f.fracBits := by positivity
  have B := f.bias_eq
  have ex : f.exponent n ≠ 2 ^ f.expBits - 1 := by
    intro x
    have h' : n % (2 ^ f.fracBits * 2 ^ f.expBits) < (2 ^ f.expBits - 1) * 2 ^ f.fracBits := by
      rw [← pow_add, Nat.add_comm]; simpa [infinityOf, isFinite] using h
    rw [Nat.mod_mul] at h'
    unfold exponent at x
    rw [x] at h'
    have := Nat.mul_comm (2 ^ f.fracBits) (2 ^ f.expBits - 1)
    omega
  have sg : (n / 2 ^ (f.expBits + f.fracBits) % 2 = 1) ↔ f.sign n = true := by
    simp [sign, Nat.add_comm]
  have key : ∀ m e, magnitude f.expBits f.fracBits n = (m : Nat) * (2 : ℚ) ^ (e : Int) →
      number f.expBits f.fracBits n = signedValue (f.sign n) m e := by
    intro m e hm
    unfold number signedValue
    simp only [sg, hm]
  unfold unpack
  simp only [ex, if_false]
  by_cases z : f.exponent n = 0
  · refine ⟨_, _, if_pos z, key _ _ ?_⟩
    unfold exponent at z
    unfold magnitude qmin emin fraction
    simp only [z, if_true, ← B]
    rw [show (1 - (f.bias : Int) - f.fracBits) = (1 - f.bias) + -(f.fracBits : Int) by ring, zpow_add₀ two, zpow_neg, zpow_natCast]
    field_simp
  · refine ⟨_, _, if_neg z, key _ _ ?_⟩
    unfold exponent at z
    unfold magnitude exponent fraction
    simp only [z, if_false, ← B]
    rw [show (((n / 2 ^ f.fracBits % 2 ^ f.expBits : Nat) : Int) - f.bias - f.fracBits) =
      (((n / 2 ^ f.fracBits % 2 ^ f.expBits : Nat) : Int) - f.bias) + -(f.fracBits : Int) by ring, zpow_add₀ two _ (-(f.fracBits : Int)),
      zpow_neg, zpow_natCast]
    push_cast
    field_simp

/-- A sum is rounded once, an exact zero with the sign of IEEE 754 (R244, R313). -/
theorem FpFormat.addFinite_number (f : FpFormat) (he : 2 ≤ f.expBits) (hb : 1 ≤ f.fracBits) (rm : RoundingMode) (n1 : Bool) (m1 : Nat)
    (e1 : Int) (n2 : Bool) (m2 : Nat) (e2 : Int) :
    roundsNumber f.expBits f.fracBits rm (signedValue n1 m1 e1 + signedValue n2 m2 e2) (if n1 = n2 then n1 else rm = .down)
      (f.addFinite rm n1 m1 e1 n2 m2 e2).1 (f.addFinite rm n1 m1 e1 n2 m2 e2).2 := by
  have two : (2 : ℚ) ≠ 0 := by norm_num
  unfold addFinite
  have key : ∀ n m (e e' : Int), e' ≤ e → ((signedMag n (m * 2 ^ (e - e').toNat) : Int) : ℚ) * 2 ^ e' = signedValue n m e := by
    intro n m e e' h
    have E : (2 : ℚ) ^ e = 2 ^ (e - e').toNat * 2 ^ e' := by
      rw [← zpow_natCast, ← zpow_add₀ two]; congr 1; omega
    cases n <;> simp [signedMag, signedValue, E] <;> ring
  have := f.roundInt_number he hb rm (signedMag n1 (m1 * 2 ^ (e1 - min e1 e2).toNat) + signedMag n2 (m2 * 2 ^ (e2 - min e1 e2).toNat))
    (min e1 e2) (if n1 = n2 then n1 else rm = .down)
  rw [Int.cast_add, add_mul, key _ _ _ _ (by omega), key _ _ _ _ (by omega)] at this
  exact this

/-! ### Conversion to an integer -/

/-- `integerOf` on a number between two integers (R313): the neighbours of its magnitude, the mode's choice. -/
theorem integerOf_spec (rm : RoundingMode) (neg up : Bool) (quo : Nat) (y : ℚ) (h2 : (quo : ℚ) ≤ y) (h3 : y < quo + 1)
    (h5 : up = true ↔ takesUpper rm neg ((quo : ℚ) ≠ y) ((quo : ℚ) + 1 / 2 < y) ((quo : ℚ) + 1 / 2 = y) (quo % 2 = 1)) :
    integerOf rm (if neg then -y else y) = signedMag neg (if up then quo + 1 else quo) := by
  have F : ⌊y⌋ = (quo : Int) := Int.floor_eq_iff.mpr ⟨by push_cast; exact h2, by push_cast; exact h3⟩
  have q0 : (0 : ℚ) ≤ quo := by positivity
  have y0 : 0 ≤ y := le_trans q0 h2
  have fh : ⌊y + 1 / 2⌋ = if (quo : ℚ) + 1 / 2 ≤ y then (quo : Int) + 1 else quo := by
    split
    · exact Int.floor_eq_iff.mpr ⟨by push_cast; linarith, by push_cast; linarith⟩
    · exact Int.floor_eq_iff.mpr ⟨by push_cast; linarith, by push_cast; linarith⟩
  have C : ⌈y⌉ = if (quo : ℚ) = y then (quo : Int) else quo + 1 := by
    split
    · next h => exact Int.ceil_eq_iff.mpr ⟨by push_cast; linarith, by push_cast; linarith⟩
    · next h => exact Int.ceil_eq_iff.mpr ⟨by push_cast; linarith [lt_of_le_of_ne h2 h], by push_cast; linarith⟩
  have ch : ⌈-y - 1 / 2⌉ = -⌊y + 1 / 2⌋ := by rw [← Int.ceil_neg]; congr 1; ring
  have le_iff : ((quo : ℚ) + 1 / 2 ≤ y) ↔ ((quo : ℚ) + 1 / 2 < y ∨ (quo : ℚ) + 1 / 2 = y) := le_iff_lt_or_eq
  cases neg <;> simp only [Bool.false_eq_true, if_false, if_true, signedMag]
  · cases rm <;> simp only [takesUpper] at h5 <;> simp only [integerOf]
    · rw [F]
      push_cast
      have a : (y - quo < 1 / 2 ∨ y - quo = 1 / 2 ∧ (quo : Int) % 2 = 0) ↔ ¬ up = true := by
        rw [h5, not_or, not_and]
        constructor
        · rintro (h | ⟨h, g⟩)
          · exact ⟨by linarith, fun x => by linarith⟩
          · exact ⟨by linarith, fun _ => by omega⟩
        · rintro ⟨h, g⟩
          rcases lt_or_eq_of_le (not_lt.mp h) with l | l
          · exact .inl (by linarith)
          · exact .inr ⟨by linarith, by have := g l.symm; omega⟩
      cases up
      · rw [if_pos (a.mpr (by simp))]; simp
      · rw [if_neg (fun x => a.mp x rfl)]; simp
    · rw [if_neg y0.not_gt, F]
      have : up = false := by simpa using h5
      simp [this]
    · have : up = false := by simpa using h5
      simp [F, this]
    · rw [C]
      by_cases h : (quo : ℚ) = y
      · have : up = false := by simpa [h] using h5
        simp [h, this]
      · have : up = true := h5.mpr ⟨trivial, h⟩
        simp [h, this]
    · rw [if_neg y0.not_gt, fh]
      by_cases u : up = true
      · rw [if_pos (le_iff.mpr (h5.mp u))]; simp [u]
      · rw [if_neg (fun x => u (h5.mpr (le_iff.mp x)))]; simp [u]
  · have fn : ⌊-y⌋ = -⌈y⌉ := Int.floor_neg
    have cn : ⌈-y⌉ = -⌊y⌋ := Int.ceil_neg
    cases rm <;> simp only [takesUpper] at h5 <;> simp only [integerOf]
    · rw [fn, C]
      by_cases h : (quo : ℚ) = y
      · have : up = false := by
          rcases Bool.eq_false_or_eq_true up with u | u
          · rcases h5.mp u with l | l <;> linarith [l]
          · exact u
        simp [h, this]
      · rw [if_neg h]
        push_cast
        have a : (-y - -((quo : ℚ) + 1) < 1 / 2 ∨ -y - -((quo : ℚ) + 1) = 1 / 2 ∧ -((quo : Int) + 1) % 2 = 0) ↔ up = true := by
          rw [h5]
          refine or_congr ⟨fun _ => by linarith, fun _ => by linarith⟩ (and_congr ⟨fun _ => by linarith, fun _ => by linarith⟩ (by omega))
        cases up
        · rw [if_neg (fun x => absurd (a.mp x) (by simp))]; simp
        · rw [if_pos (a.mpr rfl)]; simp
    · have : up = false := by simpa using h5
      subst this
      by_cases h : -y < 0
      · rw [if_pos h, cn, F]; simp
      · rw [if_neg h]
        have : y = 0 := by linarith
        subst this
        have : quo = 0 := by
          have : (quo : ℚ) = 0 := le_antisymm h2 q0
          exact_mod_cast this
        simp [this]
    · rw [fn, C]
      by_cases h : (quo : ℚ) = y
      · have : up = false := by simpa [h] using h5
        simp [h, this]
      · have : up = true := h5.mpr ⟨trivial, h⟩
        simp [h, this]
    · rw [cn, F]
      have : up = false := by simpa using h5
      simp [this]
    · by_cases h : -y < 0
      · rw [if_pos h, ch, fh]
        by_cases u : up = true
        · rw [if_pos (le_iff.mpr (h5.mp u))]; simp [u]
        · rw [if_neg (fun x => u (h5.mpr (le_iff.mp x)))]; simp [u]
      · rw [if_neg h]
        have : y = 0 := by linarith
        subst this
        have q : quo = 0 := by
          have : (quo : ℚ) = 0 := le_antisymm h2 q0
          exact_mod_cast this
        subst q
        have : up = false := by
          rcases Bool.eq_false_or_eq_true up with u | u
          · rcases h5.mp u with l | l <;> norm_num at l
          · exact u
        subst this
        norm_num

/-- Rounding to the unit 1 is rounding to an integer (R320). -/
theorem roundToUnit_integer (rm : RoundingMode) (neg : Bool) (m : Nat) (e : Int) :
    signedMag neg (roundToUnit rm neg m e 0).1 = integerOf rm (signedValue neg m e) ∧
    ((roundToUnit rm neg m e 0).2 = true ↔ ((integerOf rm (signedValue neg m e) : Int) : ℚ) ≠ signedValue neg m e) := by
  obtain ⟨quo, up, h1, h2, h3, h4, h5⟩ := roundToUnit_spec rm neg m e 0
  rw [h1, h4]
  unfold roundsAway at h5
  simp only [zpow_zero, mul_one] at *
  unfold signedValue
  generalize (m : ℚ) * 2 ^ e = y at *
  have I := integerOf_spec rm neg up quo y h2 h3 h5
  refine ⟨I.symm, ?_⟩
  rw [I, not_iff_not]
  have c : ((signedMag neg (if up then quo + 1 else quo) : Int) : ℚ) = (if neg then -y else y) ↔
      ((if up then quo + 1 else quo : Nat) : ℚ) = y := by
    cases neg <;> simp [signedMag]
  rw [c]
  constructor
  · intro h
    have : up = false := by
      rcases Bool.eq_false_or_eq_true up with u | u
      · have := h5.mp u
        cases rm <;> simp only [takesUpper, h] at this
        · rcases this with l | l <;> linarith [l]
        · exact absurd rfl this.2
        · exact absurd rfl this.2
        · rcases this with l | l <;> linarith
      · exact u
    simp [this, h]
  · cases up <;> simp
    intro h
    linarith

/-- Conversion of a finite number to an integer (R320). -/
theorem FpValue.toInteger_spec (rm : RoundingMode) (lo hi : Int) (hl : lo ≤ hi) (neg : Bool) (m : Nat) (e : Int) :
    convertsToInteger lo hi rm (signedValue neg m e) (asWord ((FpValue.finite neg m e).toInteger rm lo hi)) := by
  obtain ⟨a, b⟩ := roundToUnit_integer rm neg m e
  have hs : ∀ {p : Prop} {x : Bool}, (x = true ↔ ¬ p) → (p → flagNX x = 0#5) ∧ (¬ p → flagNX x = 1#5) := by
    intro p x h
    cases x <;> simp_all <;> decide
  obtain ⟨c, d⟩ := hs b
  unfold toInteger convertsToInteger
  simp only [a]
  generalize integerOf rm (signedValue neg m e) = z at *
  refine ⟨fun h => by rw [if_pos h]; rfl, fun h => by rw [if_neg (by omega), if_pos h]; rfl, fun h g => ?_⟩
  rw [if_neg (by omega), if_neg (by omega)]
  exact ⟨fun h => by simp only [asWord, c h], fun h => by simp only [asWord, d h]⟩
/-- The sign of a pattern is its top bit (R310). -/
theorem FpFormat.sign_msb (f : FpFormat) {w : Nat} (hw : w = 1 + f.expBits + f.fracBits) (a : BitVec w) : f.sign a.toNat = a.msb := by
  subst hw
  have lt : a.toNat < 2 * 2 ^ (f.fracBits + f.expBits) := by
    have := a.isLt
    generalize a.toNat = n at this
    rw [show 1 + f.expBits + f.fracBits = f.fracBits + f.expBits + 1 by omega, pow_succ] at this
    omega
  rw [BitVec.msb_eq_decide]
  unfold FpFormat.sign
  rw [show 1 + f.expBits + f.fracBits - 1 = f.fracBits + f.expBits by omega]
  by_cases h : 2 ^ (f.fracBits + f.expBits) ≤ a.toNat
  · have : a.toNat / 2 ^ (f.fracBits + f.expBits) = 1 := by
      rw [Nat.div_eq_iff (by positivity)]; omega
    simp [this, h]
  · have : a.toNat / 2 ^ (f.fracBits + f.expBits) = 0 := Nat.div_eq_of_lt (by omega)
    simp [this, h]

/-- A rounded magnitude with its sign fits in the format's bits. -/
theorem roundsOnce_lt {eb fb : Nat} {m neg k y r fl} (h : roundsOnce eb fb m neg k y r fl) : r < 2 ^ (1 + eb + fb) := by
  obtain ⟨t, ht, _, _, h1, h2, _⟩ := h
  have : infinityOf eb fb false < 2 ^ (eb + fb) := by
    simp only [infinityOf, pow_add]
    have := Nat.two_pow_pos eb
    have := Nat.two_pow_pos fb
    simp
  rw [show 1 + eb + fb = eb + fb + 1 by omega, pow_succ]
  by_cases c : takesUpper m neg (magnitude eb fb t ^ k ≠ y) (((magnitude eb fb t + magnitude eb fb (t + 1)) / 2) ^ k < y) (((magnitude eb fb t + magnitude eb fb (t + 1)) / 2) ^ k = y) (t % 2 = 1)
  · rw [h1 c]; split <;> omega
  · rw [h2 c]; split <;> omega

/-- So does a rounded number. -/
theorem roundsNumber_lt {eb fb : Nat} {m x z r fl} (h : roundsNumber eb fb m x z r fl) : r < 2 ^ (1 + eb + fb) := by
  by_cases c : x = 0
  · rw [(h.2 c).1, show 1 + eb + fb = eb + fb + 1 by omega, pow_succ]
    split
    · have := Nat.two_pow_pos (eb + fb); omega
    · have := Nat.two_pow_pos (eb + fb); omega
  · exact roundsOnce_lt (h.1 c)

/-! ### The order of the numbers (R311, R317, R318) -/

/-- The next pattern has a greater magnitude, up to the infinity. -/
theorem FpFormat.magnitude_succ (f : FpFormat) (he : 2 ≤ f.expBits) (n : Nat) (h : n < infinityOf f.expBits f.fracBits false) :
    magnitude f.expBits f.fracBits n < magnitude f.expBits f.fracBits (n + 1) := by
  have E := f.expBits_pow he
  have Q4 : 2 ^ 2 ≤ 2 ^ f.expBits := Nat.pow_le_pow_right (by norm_num) he
  have P : 0 < 2 ^ f.fracBits := by positivity
  have infv : infinityOf f.expBits f.fracBits false = (2 ^ f.expBits - 1) * 2 ^ f.fracBits := by simp [infinityOf]
  rw [infv] at h
  obtain ⟨K, q, hn, hq, sub⟩ : ∃ K q, n = K * 2 ^ f.fracBits + q ∧ q < 2 ^ (f.fracBits + 1) ∧ (K = 0 ∨ 2 ^ f.fracBits ≤ q) := by
    by_cases c : n < 2 ^ f.fracBits
    · exact ⟨0, n, by ring, by rw [pow_succ]; omega, .inl rfl⟩
    · have dm := Nat.div_add_mod n (2 ^ f.fracBits)
      have ml := Nat.mod_lt n P
      have d1 : 1 ≤ n / 2 ^ f.fracBits := (Nat.one_le_div_iff P).mpr (by omega)
      refine ⟨n / 2 ^ f.fracBits - 1, 2 ^ f.fracBits + n % 2 ^ f.fracBits, ?_, by rw [pow_succ]; omega, .inr (by omega)⟩
      obtain ⟨d, hd⟩ : ∃ d, n / 2 ^ f.fracBits = d + 1 := ⟨n / 2 ^ f.fracBits - 1, by omega⟩
      rw [hd] at dm ⊢
      simp only [Nat.add_sub_cancel]
      nlinarith
  have hK : K + 1 < 2 ^ f.expBits - 1 ∨ K = 0 := by
    rcases sub with z | z
    · exact .inr z
    · refine .inl ?_
      have : (K + 1) * 2 ^ f.fracBits ≤ n := by rw [hn]; nlinarith
      exact Nat.lt_of_mul_lt_mul_right (lt_of_le_of_lt this h)
  have cap : f.qmin + K ≤ f.emax - f.fracBits := by unfold qmin emin emax; omega
  rw [hn, add_assoc, f.magnitude_eq he K q sub (by omega) cap, f.magnitude_eq he K (q + 1) (by omega) (by omega) cap]
  refine mul_lt_mul_of_pos_right ?_ (by positivity)
  push_cast; linarith

/-- Magnitudes rise with the patterns. -/
theorem FpFormat.magnitude_lt (f : FpFormat) (he : 2 ≤ f.expBits) (n d : Nat) (h : n + d + 1 ≤ infinityOf f.expBits f.fracBits false) :
    magnitude f.expBits f.fracBits n < magnitude f.expBits f.fracBits (n + d + 1) := by
  induction d with
  | zero => exact f.magnitude_succ he n (by omega)
  | succ d ih => exact lt_trans (ih (by omega)) (f.magnitude_succ he (n + d + 1) (by omega))

/-- Magnitudes stand as their patterns do, up to the infinity. -/
theorem FpFormat.magnitude_lt_iff (f : FpFormat) (he : 2 ≤ f.expBits) (n k : Nat) (hn : n ≤ infinityOf f.expBits f.fracBits false)
    (hk : k ≤ infinityOf f.expBits f.fracBits false) :
    magnitude f.expBits f.fracBits n < magnitude f.expBits f.fracBits k ↔ n < k := by
  have up : ∀ a b, a < b → b ≤ infinityOf f.expBits f.fracBits false →
      magnitude f.expBits f.fracBits a < magnitude f.expBits f.fracBits b := by
    intro a b h hb
    obtain ⟨d, rfl⟩ : ∃ d, b = a + d + 1 := ⟨b - a - 1, by omega⟩
    exact f.magnitude_lt he a d hb
  constructor
  · intro h
    by_contra c
    rcases Nat.lt_or_eq_of_le (not_lt.mp c) with l | l
    · exact absurd (up k n l hn) h.not_gt
    · subst l; exact absurd h (lt_irrefl _)
  · exact fun h => up n k h hk

/-- The sign bit is no part of the magnitude. -/
theorem magnitude_mod (eb fb n : Nat) : magnitude eb fb (n % 2 ^ (fb + eb)) = magnitude eb fb n := by
  unfold magnitude
  have a : n % 2 ^ (fb + eb) % 2 ^ fb = n % 2 ^ fb := Nat.mod_mod_of_dvd _ (pow_dvd_pow 2 (by omega))
  have b : n % 2 ^ (fb + eb) / 2 ^ fb % 2 ^ eb = n / 2 ^ fb % 2 ^ eb := by
    rw [pow_add, Nat.mod_mul_right_div_self, Nat.mod_mod]
  rw [a, b]

/-- The keys of two patterns that are no NaN stand as their numbers do. -/
theorem FpFormat.orderKey_lt (f : FpFormat) (he : 2 ≤ f.expBits) (n k : Nat)
    (hn : n % 2 ^ (f.fracBits + f.expBits) ≤ infinityOf f.expBits f.fracBits false)
    (hk : k % 2 ^ (f.fracBits + f.expBits) ≤ infinityOf f.expBits f.fracBits false) :
    f.orderKey n < f.orderKey k ↔ number f.expBits f.fracBits n < number f.expBits f.fracBits k := by
  have sg : ∀ n, number f.expBits f.fracBits n =
      if f.sign n then -magnitude f.expBits f.fracBits (n % 2 ^ (f.fracBits + f.expBits))
      else magnitude f.expBits f.fracBits (n % 2 ^ (f.fracBits + f.expBits)) := by
    intro n
    rw [magnitude_mod]
    simp [number, sign, Nat.add_comm]
  have z : magnitude f.expBits f.fracBits 0 = 0 := by simp [magnitude]
  have nonneg : ∀ n, n ≤ infinityOf f.expBits f.fracBits false → 0 ≤ magnitude f.expBits f.fracBits n ∧
      (magnitude f.expBits f.fracBits n = 0 ↔ n = 0) := by
    intro n hn
    rcases Nat.eq_zero_or_pos n with h | h
    · subst h; simp [z]
    · have := (f.magnitude_lt_iff he 0 n (by omega) hn).mpr h
      rw [z] at this
      exact ⟨this.le, ⟨fun e => absurd e this.ne', fun e => by omega⟩⟩
  rw [sg n, sg k]
  unfold orderKey
  generalize n % 2 ^ (f.fracBits + f.expBits) = a at *
  generalize k % 2 ^ (f.fracBits + f.expBits) = b at *
  obtain ⟨a0, az⟩ := nonneg a hn
  obtain ⟨b0, bz⟩ := nonneg b hk
  have ab := f.magnitude_lt_iff he a b hn hk
  have ba := f.magnitude_lt_iff he b a hk hn
  cases f.sign n <;> cases f.sign k <;> simp only [signedMag, Bool.false_eq_true, if_true, if_false]
  · rw [ab]; omega
  · constructor
    · intro h; omega
    · intro h; linarith
  · constructor
    · intro h
      rcases Nat.eq_zero_or_pos a with x | x
      · have : magnitude f.expBits f.fracBits b ≠ 0 := fun y => by have := bz.mp y; omega
        have := lt_of_le_of_ne b0 (Ne.symm this)
        linarith
      · have : magnitude f.expBits f.fracBits a ≠ 0 := fun y => by have := az.mp y; omega
        have := lt_of_le_of_ne a0 (Ne.symm this)
        linarith
    · intro h
      by_contra c
      have a1 : a = 0 := by omega
      have b1 : b = 0 := by omega
      rw [az.mpr a1, bz.mpr b1] at h
      simp at h
  · rw [show (-magnitude f.expBits f.fracBits a < -magnitude f.expBits f.fracBits b) ↔ b < a from neg_lt_neg_iff.trans ba]
    omega

/-- Two such keys are equal when the numbers are. -/
theorem FpFormat.orderKey_eq (f : FpFormat) (he : 2 ≤ f.expBits) (n k : Nat)
    (hn : n % 2 ^ (f.fracBits + f.expBits) ≤ infinityOf f.expBits f.fracBits false)
    (hk : k % 2 ^ (f.fracBits + f.expBits) ≤ infinityOf f.expBits f.fracBits false) :
    f.orderKey n = f.orderKey k ↔ number f.expBits f.fracBits n = number f.expBits f.fracBits k := by
  have a := f.orderKey_lt he n k hn hk
  have b := f.orderKey_lt he k n hk hn
  constructor
  · intro h
    exact le_antisymm (not_lt.mp (fun x => by have := b.mpr x; omega)) (not_lt.mp (fun x => by have := a.mpr x; omega))
  · intro h
    have := mt a.mp (by rw [h]; exact lt_irrefl _)
    have := mt b.mp (by rw [h]; exact lt_irrefl _)
    omega

/-! ### Exact results -/

/-- A magnitude with few enough bits is that of a pattern (R311). -/
theorem FpFormat.exists_pattern (f : FpFormat) (he : 2 ≤ f.expBits) (m : Nat) (hm : m ≠ 0) (e : Int) (hl : m.log2 ≤ f.fracBits)
    (lo : f.emin ≤ e + m.log2) (hi : e + m.log2 ≤ f.emax) :
    ∃ s < infinityOf f.expBits f.fracBits false, magnitude f.expBits f.fracBits s = m * 2 ^ e := by
  have two : (2 : ℚ) ≠ 0 := by norm_num
  have E := f.expBits_pow he
  have Q4 : 2 ^ 2 ≤ 2 ^ f.expBits := Nat.pow_le_pow_right (by norm_num) he
  have a := Nat.log2_self_le hm
  have b := Nat.lt_log2_self (n := m)
  obtain ⟨d, hd⟩ : ∃ d, f.fracBits = m.log2 + d := ⟨f.fracBits - m.log2, by omega⟩
  obtain ⟨K, hK⟩ : ∃ K : Nat, (K : Int) = e + m.log2 - f.emin := ⟨(e + m.log2 - f.emin).toNat, by omega⟩
  have n1 : 2 ^ f.fracBits ≤ m * 2 ^ d := by rw [hd, pow_add]; exact Nat.mul_le_mul_right _ a
  have n2 : m * 2 ^ d < 2 ^ (f.fracBits + 1) := by
    rw [hd, show m.log2 + d + 1 = m.log2 + 1 + d by ring, pow_add _ (m.log2 + 1)]
    exact Nat.mul_lt_mul_of_pos_right b (by positivity)
  refine ⟨K * 2 ^ f.fracBits + m * 2 ^ d, ?_, ?_⟩
  · have K2 : K + 2 ≤ 2 ^ f.expBits - 1 := by unfold emin emax at *; omega
    have := Nat.mul_le_mul_right (2 ^ f.fracBits) K2
    rw [pow_succ] at n2
    simp only [infinityOf]
    simp
    nlinarith
  · rw [f.magnitude_eq he K _ (.inr n1) n2.le (by unfold qmin; omega)]
    push_cast
    rw [mul_assoc, ← zpow_natCast, ← zpow_add₀ two]
    congr 2
    unfold qmin; omega

/-- A value that is a number of the format is the result, without a flag, in every mode (R313). -/
theorem FpFormat.roundsOnce_exact (f : FpFormat) (he : 2 ≤ f.expBits) {rm : RoundingMode} {neg : Bool} {y : ℚ} {r : Nat} {fl : FpFlags}
    (h : roundsOnce f.expBits f.fracBits rm neg 1 y r fl) {s : Nat} (hs : s < infinityOf f.expBits f.fracBits false)
    (hm : magnitude f.expBits f.fracBits s = y) :
    r = (if neg then 2 ^ (f.expBits + f.fracBits) else 0) + s ∧ fl = 0#5 := by
  obtain ⟨t, ht, a, b, c1, c2, f4, f3, f0, f2, f1, _⟩ := h
  simp only [pow_one] at *
  have lt := f.magnitude_lt_iff he
  have st : t = s := by
    rw [← hm] at a b
    have x := mt (lt s t hs.le ht.le).mpr a.not_gt
    by_contra n
    have := b (by omega)
    have := (lt s (t + 1) hs.le (by omega)).mp this
    omega
  subst st
  have half : y < (magnitude f.expBits f.fracBits t + magnitude f.expBits f.fracBits (t + 1)) / 2 := by
    have := f.magnitude_succ he t ht
    rw [hm] at this ⊢
    linarith
  have na : ¬ takesUpper rm neg (magnitude f.expBits f.fracBits t ≠ y)
      ((magnitude f.expBits f.fracBits t + magnitude f.expBits f.fracBits (t + 1)) / 2 < y)
      ((magnitude f.expBits f.fracBits t + magnitude f.expBits f.fracBits (t + 1)) / 2 = y) (t % 2 = 1) := by
    cases rm <;> simp only [takesUpper, half.not_gt, half.ne'] <;> simp [hm]
  have hr := c2 na
  refine ⟨hr, ?_⟩
  have n0 : fl.getLsbD 0 = false := by
    have := mt f0.mp (by simp [hm]); simpa using this
  have n1 : fl.getLsbD 1 = false := by
    have := mt f1 (by simp [hm]); simpa using this
  have n2 : fl.getLsbD 2 = false := by
    have : ¬ (r = infinityOf f.expBits f.fracBits neg ∨ magnitude f.expBits f.fracBits (infinityOf f.expBits f.fracBits false) ≤ y) := by
      rw [not_or, not_le, hr, infinityOf_sign, ← hm]
      exact ⟨by omega, (lt _ _ ht.le le_rfl).mpr ht⟩
    have := mt f2.mp this; simpa using this
  apply BitVec.eq_of_getLsbD_eq
  intro i hi
  have : i = 0 ∨ i = 1 ∨ i = 2 ∨ i = 3 ∨ i = 4 := by omega
  rcases this with rfl | rfl | rfl | rfl | rfl <;> simp only [*] <;> rfl

/-- The number of a pattern made of a sign and a magnitude. -/
theorem number_signed (eb fb : Nat) (neg : Bool) (s : Nat) (hs : s < 2 ^ (eb + fb)) :
    number eb fb ((if neg then 2 ^ (eb + fb) else 0) + s) = if neg then -magnitude eb fb s else magnitude eb fb s := by
  have m := magnitude_mod eb fb ((if neg then 2 ^ (eb + fb) else 0) + s)
  have e : ((if neg then 2 ^ (eb + fb) else 0) + s) % 2 ^ (fb + eb) = s := by
    rw [Nat.add_comm fb eb]
    cases neg <;> simp [Nat.mod_eq_of_lt hs]
  rw [e] at m
  unfold number
  rw [← m]
  cases neg
  · simp [Nat.div_eq_of_lt hs]
  · have : (2 ^ (eb + fb) + s) / 2 ^ (eb + fb) = 1 := by
      rw [Nat.add_comm, Nat.add_div_right _ (by positivity), Nat.div_eq_of_lt hs]
    simp [this]

end Sys2Proof.Machine
end

