-- ==== Sys2Proof/Laws/Step.lean ====
section
/-! SUPPORT. What fetching and a step can do, said once. -/

namespace Sys2Proof.Machine

/-- The next state of an instruction is one of its effects. -/
theorem exec_next_effect {i : Instr} {s t : State} (h : exec i s = .next t) : s.Effect i t := by
  obtain ⟨u, hu, e⟩ := exec_effect i s
  rw [hu] at h; cases h; exact e

theorem State.staleAt_eq (s : State) : s.staleAt s.pc = true ↔ s.fetchIsStale := by
  simp only [State.staleAt, span, List.any_map, List.any_eq_true, List.mem_range, Function.comp, List.contains_eq_mem,
    decide_eq_true_eq]

/-- A step of a run that goes on, by what the fetch finds (20_memory.md R59, R62; 60_exceptions.md R403). -/
theorem step_fetches (s : State) (h : s.trap = none) :
    (s.canFetch s.pc 4 = false → step s = s.raise .instructionAccessFault s.pc) ∧
    (s.canFetch s.pc 4 = true → s.staleAt s.pc = true → step s = .fault (.staleFetch s.pc s)) ∧
    (s.canFetch s.pc 4 = true → s.staleAt s.pc = false → ∀ i, decodeWord (s.read32 s.pc) = .ok i → step s = exec i s) ∧
    (s.canFetch s.pc 4 = true → s.staleAt s.pc = false → ∀ e, decodeWord (s.read32 s.pc) = .error e →
      step s = s.raise .illegalInstruction (s.read32 s.pc)) := by
  refine ⟨fun a => ?_, fun a b => ?_, fun a b i d => ?_, fun a b e d => ?_⟩
  · simp only [step, State.fetch, h, a, Bool.not_false, if_true]
  · simp only [step, State.fetch, h, a, b, Bool.not_true, Bool.false_eq_true, if_false, if_true]
  · simp only [step, State.fetch, h, a, b, d, Bool.not_true, Bool.false_eq_true, if_false]
  · simp only [step, State.fetch, h, a, b, d, Bool.not_true, Bool.false_eq_true, if_false]

/-- A step that answers a next state took a trap of the fetch, or ran the instruction that the word at `pc` decodes to. -/
theorem step_next {s t : State} (hs : step s = .next t) : s.trap = none ∧
    ((∃ e info, t = s.takeTrap e info) ∨ ∃ i, decodeWord (s.read32 s.pc) = .ok i ∧ exec i s = .next t) := by
  cases h : s.trap with
  | some tr => simp [step, State.fetch, h] at hs
  | none =>
    refine ⟨rfl, ?_⟩
    obtain ⟨h1, h2, h3, h4⟩ := step_fetches s h
    cases a : s.canFetch s.pc 4 with
    | false => rw [h1 a] at hs; cases hs; exact .inl ⟨_, _, rfl⟩
    | true =>
      cases b : s.staleAt s.pc with
      | true => rw [h2 a b] at hs; cases hs
      | false =>
        cases e : decodeWord (s.read32 s.pc) with
        | ok i => exact .inr ⟨i, rfl, (h3 a b i e).symm.trans hs⟩
        | error x => rw [h4 a b x e] at hs; cases hs; exact .inl ⟨_, _, rfl⟩

/-- An effect is a trap, or leaves the record of traps alone. -/
theorem State.Effect.trap_cases {i : Instr} {s t : State} (h : s.Effect i t) :
    (∃ e info, t = s.takeTrap e info) ∨ t.trap = s.trap := by
  cases h <;> first | exact .inl ⟨_, _, rfl⟩ | (right; simp)

end Sys2Proof.Machine
end

