-- ==== Sys2Proof/Tests/Slice0.lean ====
section
/-! SUPPORT. The model's own tests. Words and results come from the spec: the example of the instruction's rule, or
95_test_vectors.md (sections 2.1 to 2.9), never from the model. `test_` theorems check the model; `witness_` theorems show states
and operands that meet the hypotheses of an obligation. -/

namespace Sys2Proof.Tests

set_option Elab.async false

open Sys2Proof.Machine

/-! ### Helpers -/

/-- The conventions of 95_test_vectors.md: pc = 0x00400100, the default map; here with every group admitted. -/
def base : State :=
  { State.reset with
    pc := 0x00400100#32
    params := { defaultParams with extM := true, extA := true, extF := true, extD := true } }

/-- `s` with some x registers set. -/
def State.xs (s : State) (l : List (RegIdx × Word)) : State := l.foldl (fun t p => t.writeX p.1 p.2) s
/-- `s` with some f registers set. -/
def State.fs (s : State) (l : List (RegIdx × DWord)) : State := l.foldl (fun t p => t.writeD p.1 p.2) s
/-- `s` with bytes in memory, as a launch places them. -/
def State.bytesAt (s : State) (a : Word) (bs : List Byte) : State := { s with mem := placeBytes s.mem a bs }
/-- `s` with other parameters. -/
def State.with_ (s : State) (f : Params → Params) : State := { s with params := f s.params }

/-- A boxed single. -/
def box (v : Word) : DWord := 0xFFFFFFFF#32 ++ v

/-- One step on the word `w`: what `f` sees of the next state, when no trap is taken. -/
def ran {α : Type} (w : Nat) (s : State) (f : State → α) : Option α :=
  match step (s.withFetchWord 32 w) with
  | .next t => if t.trap = none then some (f t) else none
  | _ => none

/-- One step on the word `w`: the trap it takes, with x5 and pc after it. -/
def trapOf (w : Nat) (s : State) : Option (Trap × Word × Word) :=
  match step (s.withFetchWord 32 w) with
  | .next t => t.trap.map fun tr => (tr, t.readX 5#5, t.pc)
  | _ => none

/-- x5 and pc. -/
def x5 (t : State) : Word × Word := (t.readX 5#5, t.pc)
/-- x5, the flags and pc. -/
def x5fl (t : State) : Word × Word × Word := (t.readX 5#5, t.fcsr, t.pc)
/-- f3, fcsr and pc. -/
def f3fl (t : State) : DWord × Word × Word := (t.readD 3#5, t.fcsr, t.pc)
/-- f1, fcsr and pc. -/
def f1fl (t : State) : DWord × Word × Word := (t.readD 1#5, t.fcsr, t.pc)
/-- f4, fcsr and pc. -/
def f4fl (t : State) : DWord × Word × Word := (t.readD 4#5, t.fcsr, t.pc)

/-- The memory of 95_test_vectors.md section 2.3: bytes at 0x10000000, x6 = 0x10000000, x7 = 0x123456AB. -/
def mem0 : State :=
  State.bytesAt (State.xs base [(6#5, 0x10000000#32), (7#5, 0x123456AB#32)]) 0x10000000#32
    [0x80#8, 0xFF#8, 0x7F#8, 0x01#8, 0xEF#8, 0xBE#8, 0xAD#8, 0xDE#8]

/-- `CSR_SET` of 95_test_vectors.md section 2.4, with x6 set. -/
def csr0 (value : Word) (writable : Bool) (wmask : Word) (x6 : Word) : State :=
  { State.xs base [(6#5, x6)] with csrs := [(0x340#12, { value := value, writable := writable, wmask := wmask, volatile := false })] }

/-- The word W at 0x10000000, x6 = 0x10000000, x7 (95_test_vectors.md section 2.7). -/
def word0 (w x7 : Word) : State :=
  State.bytesAt (State.xs base [(6#5, 0x10000000#32), (7#5, x7)]) 0x10000000#32 (littleEndian w)

/-- The memory map with Text writable too (95_test_vectors.md section 3.4). -/
def rwx : List Region := [{ base := 0x00400000#32, size := 0x1000, r := true, w := true, x := true }]


/-! ### Well-formedness (30_encoding.md R86, R88): each check refuses an odd offset and admits the extremes -/

theorem test_wellFormed_beq :
    ¬ (Instr.beq 1#5 2#5 7#13).WellFormed ∧ (Instr.beq 1#5 2#5 0x1000#13).WellFormed ∧ (Instr.beq 1#5 2#5 0xFFE#13).WellFormed := by decide
theorem test_wellFormed_bne :
    ¬ (Instr.bne 1#5 2#5 7#13).WellFormed ∧ (Instr.bne 1#5 2#5 0x1000#13).WellFormed ∧ (Instr.bne 1#5 2#5 0xFFE#13).WellFormed := by decide
theorem test_wellFormed_blt :
    ¬ (Instr.blt 1#5 2#5 7#13).WellFormed ∧ (Instr.blt 1#5 2#5 0x1000#13).WellFormed ∧ (Instr.blt 1#5 2#5 0xFFE#13).WellFormed := by decide
theorem test_wellFormed_bge :
    ¬ (Instr.bge 1#5 2#5 7#13).WellFormed ∧ (Instr.bge 1#5 2#5 0x1000#13).WellFormed ∧ (Instr.bge 1#5 2#5 0xFFE#13).WellFormed := by decide
theorem test_wellFormed_bltu :
    ¬ (Instr.bltu 1#5 2#5 7#13).WellFormed ∧ (Instr.bltu 1#5 2#5 0x1000#13).WellFormed ∧ (Instr.bltu 1#5 2#5 0xFFE#13).WellFormed := by decide
theorem test_wellFormed_bgeu :
    ¬ (Instr.bgeu 1#5 2#5 7#13).WellFormed ∧ (Instr.bgeu 1#5 2#5 0x1000#13).WellFormed ∧ (Instr.bgeu 1#5 2#5 0xFFE#13).WellFormed := by decide
theorem test_wellFormed_jal :
    ¬ (Instr.jal 1#5 2049#21).WellFormed ∧ (Instr.jal 1#5 0x100000#21).WellFormed ∧ (Instr.jal 1#5 0xFFFFE#21).WellFormed := by decide

/-! ### Decoding: for every constructor the word of its rule's example (or of 95_test_vectors.md), and the instruction it is printed for -/

theorem test_decode_rv32i_integer_0 :
    decodeWord 0x002081B3#32 = .ok (.add 3#5 1#5 2#5) ∧
    decodeWord 0xFFF30293#32 = .ok (.addi 5#5 6#5 0xFFF#12) ∧
    decodeWord 0x009473B3#32 = .ok (.and 7#5 8#5 9#5) ∧
    decodeWord 0xF005F513#32 = .ok (.andi 10#5 11#5 0xF00#12) ∧
    decodeWord 0x12345297#32 = .ok (.auipc 5#5 0x12345#20) ∧
    decodeWord 0xFFFFF2B7#32 = .ok (.lui 5#5 0xFFFFF#20) ∧
    decodeWord 0x009463B3#32 = .ok (.or 7#5 8#5 9#5) ∧
    decodeWord 0x7005E513#32 = .ok (.ori 10#5 11#5 0x700#12) ∧
    decodeWord 0x007312B3#32 = .ok (.sll 5#5 6#5 7#5) ∧
    decodeWord 0x01F31293#32 = .ok (.slli 5#5 6#5 31#5) := by decide +kernel
theorem test_decode_rv32i_integer_1 :
    decodeWord 0x007322B3#32 = .ok (.slt 5#5 6#5 7#5) ∧
    decodeWord 0xFFF32293#32 = .ok (.slti 5#5 6#5 0xFFF#12) ∧
    decodeWord 0xFFF33293#32 = .ok (.sltiu 5#5 6#5 0xFFF#12) ∧
    decodeWord 0x00133293#32 = .ok (.sltiu 5#5 6#5 0x001#12) ∧
    decodeWord 0x006032B3#32 = .ok (.sltu 5#5 0#5 6#5) ∧
    decodeWord 0x407352B3#32 = .ok (.sra 5#5 6#5 7#5) ∧
    decodeWord 0x41F35293#32 = .ok (.srai 5#5 6#5 31#5) ∧
    decodeWord 0x007352B3#32 = .ok (.srl 5#5 6#5 7#5) ∧
    decodeWord 0x00435293#32 = .ok (.srli 5#5 6#5 4#5) ∧
    decodeWord 0x407302B3#32 = .ok (.sub 5#5 6#5 7#5) := by decide +kernel
theorem test_decode_rv32i_integer_2 :
    decodeWord 0x009443B3#32 = .ok (.xor 7#5 8#5 9#5) ∧
    decodeWord 0xFFF34293#32 = .ok (.xori 5#5 6#5 0xFFF#12) := by decide +kernel
theorem test_decode_rv32i_control_0 :
    decodeWord 0x00208463#32 = .ok (.beq 1#5 2#5 0x0008#13) ∧
    decodeWord 0xFE20DEE3#32 = .ok (.bge 1#5 2#5 0x1FFC#13) ∧
    decodeWord 0x0020F863#32 = .ok (.bgeu 1#5 2#5 0x0010#13) ∧
    decodeWord 0x0020C663#32 = .ok (.blt 1#5 2#5 0x000C#13) ∧
    decodeWord 0x0020E663#32 = .ok (.bltu 1#5 2#5 0x000C#13) ∧
    decodeWord 0xFE209CE3#32 = .ok (.bne 1#5 2#5 0x1FF8#13) ∧
    decodeWord 0x00209163#32 = .ok (.bne 1#5 2#5 0x0002#13) ∧
    decodeWord 0x001000EF#32 = .ok (.jal 1#5 0x000800#21) ∧
    decodeWord 0xFFDFF06F#32 = .ok (.jal 0#5 0x1FFFFC#21) ∧
    decodeWord 0x004280E7#32 = .ok (.jalr 1#5 5#5 0x004#12) := by decide +kernel
theorem test_decode_rv32i_control_1 :
    decodeWord 0x000282E7#32 = .ok (.jalr 5#5 5#5 0x000#12) := by decide +kernel
theorem test_decode_rv32i_loadstore_0 :
    decodeWord 0x00030283#32 = .ok (.lb 5#5 6#5 0x000#12) ∧
    decodeWord 0x00034283#32 = .ok (.lbu 5#5 6#5 0x000#12) ∧
    decodeWord 0x00231283#32 = .ok (.lh 5#5 6#5 0x002#12) ∧
    decodeWord 0x00235283#32 = .ok (.lhu 5#5 6#5 0x002#12) ∧
    decodeWord 0xFFC32283#32 = .ok (.lw 5#5 6#5 0xFFC#12) ∧
    decodeWord 0x00132283#32 = .ok (.lw 5#5 6#5 0x001#12) ∧
    decodeWord 0x007301A3#32 = .ok (.sb 6#5 7#5 0x003#12) ∧
    decodeWord 0x00731123#32 = .ok (.sh 6#5 7#5 0x002#12) ∧
    decodeWord 0xFE732C23#32 = .ok (.sw 6#5 7#5 0xFF8#12) := by decide +kernel
theorem test_decode_rv32i_system_0 :
    decodeWord 0x3402B2F3#32 = .ok (.csrrc 5#5 5#5 0x340#12) ∧
    decodeWord 0x340072F3#32 = .ok (.csrrci 5#5 0#5 0x340#12) ∧
    decodeWord 0xC00022F3#32 = .ok (.csrrs 5#5 0#5 0xC00#12) ∧
    decodeWord 0x001022F3#32 = .ok (.csrrs 5#5 0#5 0x001#12) ∧
    decodeWord 0x3400E2F3#32 = .ok (.csrrsi 5#5 1#5 0x340#12) ∧
    decodeWord 0x340312F3#32 = .ok (.csrrw 5#5 6#5 0x340#12) ∧
    decodeWord 0x340FD073#32 = .ok (.csrrwi 0#5 31#5 0x340#12) ∧
    decodeWord 0x00100073#32 = .ok (.ebreak) ∧
    decodeWord 0x00000073#32 = .ok (.ecall) ∧
    decodeWord 0x0FF0000F#32 = .ok (.fence 0#5 0#5 0x0FF#12) := by decide +kernel
theorem test_decode_rv32i_system_1 :
    decodeWord 0x0000100F#32 = .ok (.fenceI 0#5 0#5 0x000#12) := by decide +kernel
theorem test_decode_m_multiply_0 :
    decodeWord 0x027302B3#32 = .ok (.mul 5#5 6#5 7#5) ∧
    decodeWord 0x027312B3#32 = .ok (.mulh 5#5 6#5 7#5) ∧
    decodeWord 0x027322B3#32 = .ok (.mulhsu 5#5 6#5 7#5) ∧
    decodeWord 0x027332B3#32 = .ok (.mulhu 5#5 6#5 7#5) ∧
    decodeWord 0x027342B3#32 = .ok (.div 5#5 6#5 7#5) ∧
    decodeWord 0x027352B3#32 = .ok (.divu 5#5 6#5 7#5) ∧
    decodeWord 0x027362B3#32 = .ok (.rem 5#5 6#5 7#5) ∧
    decodeWord 0x027372B3#32 = .ok (.remu 5#5 6#5 7#5) := by decide +kernel
theorem test_decode_fd_float_0 :
    decodeWord 0x00032087#32 = .ok (.flw 1#5 6#5 0x000#12) ∧
    decodeWord 0x00833087#32 = .ok (.fld 1#5 6#5 0x008#12) ∧
    decodeWord 0x00232227#32 = .ok (.fsw 6#5 2#5 0x004#12) ∧
    decodeWord 0x00233827#32 = .ok (.fsd 6#5 2#5 0x010#12) ∧
    decodeWord 0x0020F1D3#32 = .ok (.faddS 3#5 1#5 2#5 7#3) ∧
    decodeWord 0x0220F1D3#32 = .ok (.faddD 3#5 1#5 2#5 7#3) ∧
    decodeWord 0x0820F1D3#32 = .ok (.fsubS 3#5 1#5 2#5 7#3) ∧
    decodeWord 0x0A20F1D3#32 = .ok (.fsubD 3#5 1#5 2#5 7#3) ∧
    decodeWord 0x1020F1D3#32 = .ok (.fmulS 3#5 1#5 2#5 7#3) ∧
    decodeWord 0x1220F1D3#32 = .ok (.fmulD 3#5 1#5 2#5 7#3) := by decide +kernel
theorem test_decode_fd_float_1 :
    decodeWord 0x1820F1D3#32 = .ok (.fdivS 3#5 1#5 2#5 7#3) ∧
    decodeWord 0x1A20F1D3#32 = .ok (.fdivD 3#5 1#5 2#5 7#3) ∧
    decodeWord 0x5800F1D3#32 = .ok (.fsqrtS 3#5 1#5 7#3) ∧
    decodeWord 0x5A00F1D3#32 = .ok (.fsqrtD 3#5 1#5 7#3) ∧
    decodeWord 0x1820F243#32 = .ok (.fmaddS 4#5 1#5 2#5 3#5 7#3) ∧
    decodeWord 0x1A20F243#32 = .ok (.fmaddD 4#5 1#5 2#5 3#5 7#3) ∧
    decodeWord 0x1820F247#32 = .ok (.fmsubS 4#5 1#5 2#5 3#5 7#3) ∧
    decodeWord 0x1A20F247#32 = .ok (.fmsubD 4#5 1#5 2#5 3#5 7#3) ∧
    decodeWord 0x1820F24B#32 = .ok (.fnmsubS 4#5 1#5 2#5 3#5 7#3) ∧
    decodeWord 0x1A20F24B#32 = .ok (.fnmsubD 4#5 1#5 2#5 3#5 7#3) := by decide +kernel
theorem test_decode_fd_float_2 :
    decodeWord 0x1820F24F#32 = .ok (.fnmaddS 4#5 1#5 2#5 3#5 7#3) ∧
    decodeWord 0x1A20F24F#32 = .ok (.fnmaddD 4#5 1#5 2#5 3#5 7#3) ∧
    decodeWord 0x202081D3#32 = .ok (.fsgnjS 3#5 1#5 2#5) ∧
    decodeWord 0x222081D3#32 = .ok (.fsgnjD 3#5 1#5 2#5) ∧
    decodeWord 0x202091D3#32 = .ok (.fsgnjnS 3#5 1#5 2#5) ∧
    decodeWord 0x222091D3#32 = .ok (.fsgnjnD 3#5 1#5 2#5) ∧
    decodeWord 0x2020A1D3#32 = .ok (.fsgnjxS 3#5 1#5 2#5) ∧
    decodeWord 0x2220A1D3#32 = .ok (.fsgnjxD 3#5 1#5 2#5) ∧
    decodeWord 0x282081D3#32 = .ok (.fminS 3#5 1#5 2#5) ∧
    decodeWord 0x2A2081D3#32 = .ok (.fminD 3#5 1#5 2#5) := by decide +kernel
theorem test_decode_fd_float_3 :
    decodeWord 0x282091D3#32 = .ok (.fmaxS 3#5 1#5 2#5) ∧
    decodeWord 0x2A2091D3#32 = .ok (.fmaxD 3#5 1#5 2#5) ∧
    decodeWord 0xA020A2D3#32 = .ok (.feqS 5#5 1#5 2#5) ∧
    decodeWord 0xA220A2D3#32 = .ok (.feqD 5#5 1#5 2#5) ∧
    decodeWord 0xA02092D3#32 = .ok (.fltS 5#5 1#5 2#5) ∧
    decodeWord 0xA22092D3#32 = .ok (.fltD 5#5 1#5 2#5) ∧
    decodeWord 0xA02082D3#32 = .ok (.fleS 5#5 1#5 2#5) ∧
    decodeWord 0xA22082D3#32 = .ok (.fleD 5#5 1#5 2#5) ∧
    decodeWord 0xE00092D3#32 = .ok (.fclassS 5#5 1#5) ∧
    decodeWord 0xE20092D3#32 = .ok (.fclassD 5#5 1#5) := by decide +kernel
theorem test_decode_fd_float_4 :
    decodeWord 0xF00300D3#32 = .ok (.fmvSX 1#5 6#5) ∧
    decodeWord 0xF20300D3#32 = .ok (.fmvDX 1#5 6#5) ∧
    decodeWord 0xE00082D3#32 = .ok (.fmvXS 5#5 1#5) ∧
    decodeWord 0xE20082D3#32 = .ok (.fmvXD 5#5 1#5) ∧
    decodeWord 0x420081D3#32 = .ok (.fcvtDS 3#5 1#5 0#3) ∧
    decodeWord 0x4010F1D3#32 = .ok (.fcvtSD 3#5 1#5 7#3) ∧
    decodeWord 0xD00370D3#32 = .ok (.fcvtSW 1#5 6#5 7#3) ∧
    decodeWord 0xD20370D3#32 = .ok (.fcvtDW 1#5 6#5 7#3) ∧
    decodeWord 0xD02370D3#32 = .ok (.fcvtSL 1#5 6#5 7#3) ∧
    decodeWord 0xD22370D3#32 = .ok (.fcvtDL 1#5 6#5 7#3) := by decide +kernel
theorem test_decode_fd_float_5 :
    decodeWord 0xD01370D3#32 = .ok (.fcvtSWu 1#5 6#5 7#3) ∧
    decodeWord 0xD21370D3#32 = .ok (.fcvtDWu 1#5 6#5 7#3) ∧
    decodeWord 0xD03370D3#32 = .ok (.fcvtSLu 1#5 6#5 7#3) ∧
    decodeWord 0xD23370D3#32 = .ok (.fcvtDLu 1#5 6#5 7#3) ∧
    decodeWord 0xC00082D3#32 = .ok (.fcvtWS 5#5 1#5 0#3) ∧
    decodeWord 0xC20092D3#32 = .ok (.fcvtWD 5#5 1#5 1#3) ∧
    decodeWord 0xC02092D3#32 = .ok (.fcvtLS 5#5 1#5 1#3) ∧
    decodeWord 0xC22092D3#32 = .ok (.fcvtLD 5#5 1#5 1#3) ∧
    decodeWord 0xC01082D3#32 = .ok (.fcvtWuS 5#5 1#5 0#3) ∧
    decodeWord 0xC21092D3#32 = .ok (.fcvtWuD 5#5 1#5 1#3) := by decide +kernel
theorem test_decode_fd_float_6 :
    decodeWord 0xC03092D3#32 = .ok (.fcvtLuS 5#5 1#5 1#3) ∧
    decodeWord 0xC23092D3#32 = .ok (.fcvtLuD 5#5 1#5 1#3) := by decide +kernel
theorem test_decode_a_atomic_0 :
    decodeWord 0x007322AF#32 = .ok (.amoaddW 5#5 6#5 7#5 0#1 0#1) ∧
    decodeWord 0x067322AF#32 = .ok (.amoaddW 5#5 6#5 7#5 1#1 1#1) ∧
    decodeWord 0x047332AF#32 = .ok (.amoaddD 5#5 6#5 7#5 1#1 0#1) ∧
    decodeWord 0x607322AF#32 = .ok (.amoandW 5#5 6#5 7#5 0#1 0#1) ∧
    decodeWord 0x647332AF#32 = .ok (.amoandD 5#5 6#5 7#5 1#1 0#1) ∧
    decodeWord 0xA07322AF#32 = .ok (.amomaxW 5#5 6#5 7#5 0#1 0#1) ∧
    decodeWord 0xA47332AF#32 = .ok (.amomaxD 5#5 6#5 7#5 1#1 0#1) ∧
    decodeWord 0xE07322AF#32 = .ok (.amomaxuW 5#5 6#5 7#5 0#1 0#1) ∧
    decodeWord 0xE47332AF#32 = .ok (.amomaxuD 5#5 6#5 7#5 1#1 0#1) ∧
    decodeWord 0x807322AF#32 = .ok (.amominW 5#5 6#5 7#5 0#1 0#1) := by decide +kernel
theorem test_decode_a_atomic_1 :
    decodeWord 0x847332AF#32 = .ok (.amominD 5#5 6#5 7#5 1#1 0#1) ∧
    decodeWord 0xC07322AF#32 = .ok (.amominuW 5#5 6#5 7#5 0#1 0#1) ∧
    decodeWord 0xC47332AF#32 = .ok (.amominuD 5#5 6#5 7#5 1#1 0#1) ∧
    decodeWord 0x407322AF#32 = .ok (.amoorW 5#5 6#5 7#5 0#1 0#1) ∧
    decodeWord 0x447332AF#32 = .ok (.amoorD 5#5 6#5 7#5 1#1 0#1) ∧
    decodeWord 0x087322AF#32 = .ok (.amoswapW 5#5 6#5 7#5 0#1 0#1) ∧
    decodeWord 0x0C7332AF#32 = .ok (.amoswapD 5#5 6#5 7#5 1#1 0#1) ∧
    decodeWord 0x207322AF#32 = .ok (.amoxorW 5#5 6#5 7#5 0#1 0#1) ∧
    decodeWord 0x247332AF#32 = .ok (.amoxorD 5#5 6#5 7#5 1#1 0#1) ∧
    decodeWord 0x100322AF#32 = .ok (.lrW 5#5 6#5 0#1 0#1) := by decide +kernel
theorem test_decode_a_atomic_2 :
    decodeWord 0x120332AF#32 = .ok (.lrD 5#5 6#5 0#1 1#1) ∧
    decodeWord 0x187322AF#32 = .ok (.scW 5#5 6#5 7#5 0#1 0#1) ∧
    decodeWord 0x1C7332AF#32 = .ok (.scD 5#5 6#5 7#5 1#1 0#1) := by decide +kernel

/-! ### Words that no row of the table has (30_encoding.md R96, R97, R99, R103; 95_test_vectors.md sections 2.1 to 2.9) -/

theorem test_illegal_words_0 :
    decodeWord 0x02031293#32 = .error (.noRow 0x02031293#32) ∧
    decodeWord 0x00002063#32 = .error (.noRow 0x00002063#32) ∧
    decodeWord 0x000290E7#32 = .error (.noRow 0x000290E7#32) ∧
    decodeWord 0x00033283#32 = .error (.noRow 0x00033283#32) ∧
    decodeWord 0x00036283#32 = .error (.noRow 0x00036283#32) ∧
    decodeWord 0x00733023#32 = .error (.noRow 0x00733023#32) := by decide +kernel
theorem test_illegal_words_1 :
    decodeWord 0x00200073#32 = .error (.noRow 0x00200073#32) ∧
    decodeWord 0x000000F3#32 = .error (.noRow 0x000000F3#32) ∧
    decodeWord 0x30200073#32 = .error (.noRow 0x30200073#32) ∧
    decodeWord 0x10500073#32 = .error (.noRow 0x10500073#32) ∧
    decodeWord 0x0000200F#32 = .error (.noRow 0x0000200F#32) ∧
    decodeWord 0x340342F3#32 = .error (.noRow 0x340342F3#32) := by decide +kernel
theorem test_illegal_words_2 :
    decodeWord 0x101322AF#32 = .error (.noRow 0x101322AF#32) ∧
    decodeWord 0x5810F1D3#32 = .error (.noRow 0x5810F1D3#32) ∧
    decodeWord 0x0000001B#32 = .error (.noRow 0x0000001B#32) ∧
    decodeWord 0x00000001#32 = .error (.noRow 0x00000001#32) ∧
    decodeWord 0x00000000#32 = .error (.noRow 0x00000000#32) ∧
    decodeWord 0xFFFFFFFF#32 = .error (.noRow 0xFFFFFFFF#32) := by decide +kernel
theorem test_decode_rest : decode [0xB3#8, 0x81#8, 0x20#8, 0x00#8, 0x55#8] = .ok (.add 3#5 1#5 2#5, [0x55#8]) := by decide
theorem test_decode_short : decode [0xB3#8, 0x81#8] = .error (.tooShort 2) := by decide
theorem test_decodeTableWord : decodeTableWord 32 0x002081B3 = some (.add 3#5 1#5 2#5) ∧ decodeTableWord 32 0x1B = none := by decide

/-! ### Integer computation (95_test_vectors.md section 2.1) -/

theorem test_add_wraps :
    ran 0x007302B3 (State.xs base [(6#5, 0xFFFFFFFF#32), (7#5, 0x00000001#32)]) x5 = some (0x00000000#32, 0x00400104#32) := by decide +kernel
theorem test_add_no_overflow_trap :
    ran 0x007302B3 (State.xs base [(6#5, 0x7FFFFFFF#32), (7#5, 0x00000001#32)]) x5 = some (0x80000000#32, 0x00400104#32) := by decide +kernel
theorem test_sub_borrows :
    ran 0x407302B3 (State.xs base [(6#5, 0x00000000#32), (7#5, 0x00000001#32)]) x5 = some (0xFFFFFFFF#32, 0x00400104#32) := by decide +kernel
theorem test_sub_edge :
    ran 0x407302B3 (State.xs base [(6#5, 0x80000000#32), (7#5, 0x00000001#32)]) x5 = some (0x7FFFFFFF#32, 0x00400104#32) := by decide +kernel
theorem test_addi_negative :
    ran 0xFFF30293 (State.xs base [(6#5, 0x00000000#32)]) x5 = some (0xFFFFFFFF#32, 0x00400104#32) := by decide +kernel
theorem test_addi_source_is_dest :
    ran 0x00128293 (State.xs base [(5#5, 0xFFFFFFFF#32)]) x5 = some (0x00000000#32, 0x00400104#32) := by decide +kernel
theorem test_sll_amount_mod_32 :
    ran 0x007312B3 (State.xs base [(6#5, 0x00000001#32), (7#5, 0x0000003F#32)]) x5 = some (0x80000000#32, 0x00400104#32) := by decide +kernel
theorem test_sll_32_is_0 :
    ran 0x007312B3 (State.xs base [(6#5, 0x00000001#32), (7#5, 0x00000020#32)]) x5 = some (0x00000001#32, 0x00400104#32) := by decide +kernel
theorem test_srl :
    ran 0x007352B3 (State.xs base [(6#5, 0x80000000#32), (7#5, 0x0000001F#32)]) x5 = some (0x00000001#32, 0x00400104#32) := by decide +kernel
theorem test_srl_amount_0 :
    ran 0x007352B3 (State.xs base [(6#5, 0x80000000#32), (7#5, 0xFFFFFFE0#32)]) x5 = some (0x80000000#32, 0x00400104#32) := by decide +kernel
theorem test_sra_negative :
    ran 0x407352B3 (State.xs base [(6#5, 0x80000000#32), (7#5, 0x00000004#32)]) x5 = some (0xF8000000#32, 0x00400104#32) := by decide +kernel
theorem test_sra_positive :
    ran 0x407352B3 (State.xs base [(6#5, 0x7FFFFFFF#32), (7#5, 0x0000001F#32)]) x5 = some (0x00000000#32, 0x00400104#32) := by decide +kernel
theorem test_slli :
    ran 0x01F31293 (State.xs base [(6#5, 0x00000003#32)]) x5 = some (0x80000000#32, 0x00400104#32) := by decide +kernel
theorem test_srli :
    ran 0x01F35293 (State.xs base [(6#5, 0x80000000#32)]) x5 = some (0x00000001#32, 0x00400104#32) := by decide +kernel
theorem test_srai :
    ran 0x40435293 (State.xs base [(6#5, 0xFFFFFF00#32)]) x5 = some (0xFFFFFFF0#32, 0x00400104#32) := by decide +kernel
theorem test_srai_31 :
    ran 0x41F35293 (State.xs base [(6#5, 0x80000000#32)]) x5 = some (0xFFFFFFFF#32, 0x00400104#32) := by decide +kernel
theorem test_slt_signed :
    ran 0x007322B3 (State.xs base [(6#5, 0x80000000#32), (7#5, 0x7FFFFFFF#32)]) x5 = some (0x00000001#32, 0x00400104#32) := by decide +kernel
theorem test_slt_equal :
    ran 0x007322B3 (State.xs base [(6#5, 0x00000009#32), (7#5, 0x00000009#32)]) x5 = some (0x00000000#32, 0x00400104#32) := by decide +kernel
theorem test_sltu_unsigned :
    ran 0x007332B3 (State.xs base [(6#5, 0x80000000#32), (7#5, 0x7FFFFFFF#32)]) x5 = some (0x00000000#32, 0x00400104#32) := by decide +kernel
theorem test_slti_less :
    ran 0xFFF32293 (State.xs base [(6#5, 0xFFFFFFFE#32)]) x5 = some (0x00000001#32, 0x00400104#32) := by decide +kernel
theorem test_slti_not :
    ran 0xFFF32293 (State.xs base [(6#5, 0x00000000#32)]) x5 = some (0x00000000#32, 0x00400104#32) := by decide +kernel
theorem test_sltiu_extended :
    ran 0xFFF33293 (State.xs base [(6#5, 0xFFFFFFFE#32)]) x5 = some (0x00000001#32, 0x00400104#32) := by decide +kernel
theorem test_sltiu_not :
    ran 0xFFF33293 (State.xs base [(6#5, 0xFFFFFFFF#32)]) x5 = some (0x00000000#32, 0x00400104#32) := by decide +kernel
theorem test_xor :
    ran 0x007342B3 (State.xs base [(6#5, 0xFF00FF00#32), (7#5, 0x0FF00FF0#32)]) x5 = some (0xF0F0F0F0#32, 0x00400104#32) := by decide +kernel
theorem test_or :
    ran 0x007362B3 (State.xs base [(6#5, 0xFF00FF00#32), (7#5, 0x0FF00FF0#32)]) x5 = some (0xFFF0FFF0#32, 0x00400104#32) := by decide +kernel
theorem test_and :
    ran 0x007372B3 (State.xs base [(6#5, 0xFF00FF00#32), (7#5, 0x0FF00FF0#32)]) x5 = some (0x0F000F00#32, 0x00400104#32) := by decide +kernel
theorem test_xori_not :
    ran 0xFFF34293 (State.xs base [(6#5, 0x12345678#32)]) x5 = some (0xEDCBA987#32, 0x00400104#32) := by decide +kernel
theorem test_ori_extended :
    ran 0x80036293 (State.xs base [(6#5, 0x00000000#32)]) x5 = some (0xFFFFF800#32, 0x00400104#32) := by decide +kernel
theorem test_ori :
    ran 0x0F036293 (State.xs base [(6#5, 0x12345608#32)]) x5 = some (0x123456F8#32, 0x00400104#32) := by decide +kernel
theorem test_andi_negative :
    ran 0xFF037293 (State.xs base [(6#5, 0x1234567F#32)]) x5 = some (0x12345670#32, 0x00400104#32) := by decide +kernel
theorem test_andi_positive :
    ran 0x7FF37293 (State.xs base [(6#5, 0xFFFFFFFF#32)]) x5 = some (0x000007FF#32, 0x00400104#32) := by decide +kernel
theorem test_lui :
    ran 0x123452B7 base x5 = some (0x12345000#32, 0x00400104#32) := by decide +kernel
theorem test_lui_top :
    ran 0xFFFFF2B7 base x5 = some (0xFFFFF000#32, 0x00400104#32) := by decide +kernel
theorem test_auipc :
    ran 0xFFFFF297 base x5 = some (0x003FF100#32, 0x00400104#32) := by decide +kernel
theorem test_auipc_zero :
    ran 0x00000297 base x5 = some (0x00400100#32, 0x00400104#32) := by decide +kernel
-- 10_state.md R22
theorem test_add_to_x0 :
    ran 0x00730033 (State.xs base [(6#5, 3#32), (7#5, 4#32)]) (fun t => (t.readX 0#5, t.x.get 0, t.pc)) = some (0#32, 0#32, 0x00400104#32) := by decide +kernel

/-! ### Control transfer (section 2.2) -/

theorem test_beq_taken :
    ran 0x00628463 (State.xs base [(5#5, 0x00000007#32), (6#5, 0x00000007#32)]) State.pc = some 0x00400108#32 := by decide +kernel
theorem test_beq_not_taken :
    ran 0x00628463 (State.xs base [(5#5, 0x00000007#32), (6#5, 0x00000008#32)]) State.pc = some 0x00400104#32 := by decide +kernel
theorem test_bne_back :
    ran 0xFE629EE3 (State.xs base [(5#5, 0x00000007#32), (6#5, 0x00000008#32)]) State.pc = some 0x004000FC#32 := by decide +kernel
theorem test_bne_not_taken :
    ran 0xFE629EE3 (State.xs base [(5#5, 0x00000007#32), (6#5, 0x00000007#32)]) State.pc = some 0x00400104#32 := by decide +kernel
theorem test_blt_signed :
    ran 0x0062C863 (State.xs base [(5#5, 0xFFFFFFFF#32), (6#5, 0x00000000#32)]) State.pc = some 0x00400110#32 := by decide +kernel
theorem test_bltu_unsigned :
    ran 0x0062E863 (State.xs base [(5#5, 0xFFFFFFFF#32), (6#5, 0x00000000#32)]) State.pc = some 0x00400104#32 := by decide +kernel
theorem test_bge_signed :
    ran 0x0062D863 (State.xs base [(5#5, 0xFFFFFFFF#32), (6#5, 0x00000000#32)]) State.pc = some 0x00400104#32 := by decide +kernel
theorem test_bge_equal :
    ran 0x0062D863 (State.xs base [(5#5, 0x80000000#32), (6#5, 0x80000000#32)]) State.pc = some 0x00400110#32 := by decide +kernel
theorem test_bgeu_unsigned :
    ran 0x0062F863 (State.xs base [(5#5, 0xFFFFFFFF#32), (6#5, 0x00000000#32)]) State.pc = some 0x00400110#32 := by decide +kernel
theorem test_branch_misaligned :
    trapOf 0x00628163 (State.xs base [(5#5, 0x00000007#32), (6#5, 0x00000007#32)]) = some (⟨.instructionAddressMisaligned, 0x00400102#32⟩, 0x00000007#32, 0x00400100#32) := by decide +kernel
theorem test_branch_misaligned_not_taken :
    ran 0x00628163 (State.xs base [(5#5, 0x00000007#32), (6#5, 0x00000008#32)]) State.pc = some 0x00400104#32 := by decide +kernel
theorem test_jal :
    ran 0x001000EF base (fun t => (t.readX 1#5, t.pc)) = some (0x00400104#32, 0x00400900#32) := by decide +kernel
theorem test_jal_lowest :
    ran 0x800000EF base (fun t => (t.readX 1#5, t.pc)) = some (0x00400104#32, 0x00300100#32) := by decide +kernel
theorem test_jalr_clears_bit_0 :
    ran 0xFFF280E7 (State.xs base [(5#5, 0x00400202#32)]) (fun t => (t.readX 1#5, t.pc)) = some (0x00400104#32, 0x00400200#32) := by decide +kernel
theorem test_jalr_same_register :
    ran 0x000080E7 (State.xs base [(1#5, 0x00400300#32)]) (fun t => (t.readX 1#5, t.pc)) = some (0x00400104#32, 0x00400300#32) := by decide +kernel
-- R159, R150
theorem test_jalr_bit_0_first :
    (trapOf 0x000280E7 (State.xs base [(5#5, 0x00400203#32)])).map (·.1) = some ⟨.instructionAddressMisaligned, 0x00400202#32⟩ := by decide +kernel
-- R150
theorem test_jal_misaligned :
    (trapOf 0x006000EF (State.xs base [(1#5, 0x11111111#32)])).map (·.1) = some ⟨.instructionAddressMisaligned, 0x00400106#32⟩ := by decide +kernel

/-! ### Loads and stores (section 2.3) -/

theorem test_lb :
    ran 0x00030283 mem0 x5 = some (0xFFFFFF80#32, 0x00400104#32) := by decide +kernel
theorem test_lbu :
    ran 0x00034283 mem0 x5 = some (0x00000080#32, 0x00400104#32) := by decide +kernel
theorem test_lbu_3 :
    ran 0x00334283 mem0 x5 = some (0x00000001#32, 0x00400104#32) := by decide +kernel
theorem test_lh :
    ran 0x00031283 mem0 x5 = some (0xFFFFFF80#32, 0x00400104#32) := by decide +kernel
theorem test_lh_positive :
    ran 0x00231283 mem0 x5 = some (0x0000017F#32, 0x00400104#32) := by decide +kernel
theorem test_lhu :
    ran 0x00035283 mem0 x5 = some (0x0000FF80#32, 0x00400104#32) := by decide +kernel
theorem test_lw :
    ran 0x00432283 mem0 x5 = some (0xDEADBEEF#32, 0x00400104#32) := by decide +kernel
theorem test_lw_misaligned_supported :
    ran 0x00232283 (State.with_ mem0 fun p => { p with misaligned := .support }) x5 = some (0xBEEF017F#32, 0x00400104#32) := by decide +kernel
theorem test_load_to_x0 :
    ran 0x00032003 mem0 (fun t => (t.readX 0#5, t.pc)) = some (0#32, 0x00400104#32) := by decide +kernel
-- 60_exceptions.md R403: before existence
theorem test_lw_misaligned :
    trapOf 0x00232283 (State.xs mem0 [(6#5, 0x10000FFC#32)]) = some (⟨.loadAddressMisaligned, 0x10000FFE#32⟩, 0x00000000#32, 0x00400100#32) := by decide +kernel
theorem test_lw_absent :
    trapOf 0x00232283 (State.with_ (State.xs mem0 [(6#5, 0x10000FFC#32)]) fun p => { p with misaligned := .support }) = some (⟨.loadAccessFault, 0x10000FFE#32⟩, 0x00000000#32, 0x00400100#32) := by decide +kernel
theorem test_lw_wraps :
    trapOf 0xFFC32283 (State.xs mem0 [(6#5, 0x00000000#32)]) = some (⟨.loadAccessFault, 0xFFFFFFFC#32⟩, 0x00000000#32, 0x00400100#32) := by decide +kernel
theorem test_sb :
    ran 0x007300A3 mem0 (fun t => (t.byte 0x10000000#32, t.byte 0x10000001#32, t.byte 0x10000002#32, t.byte 0x10000003#32, t.stale)) = some (0x80#8, 0xAB#8, 0x7F#8, 0x01#8, [0x10000001]) := by decide +kernel
theorem test_sh :
    ran 0x00731123 mem0 (fun t => (t.byte 0x10000000#32, t.byte 0x10000001#32, t.byte 0x10000002#32, t.byte 0x10000003#32, t.stale)) = some (0x80#8, 0xFF#8, 0xAB#8, 0x56#8, [0x10000002, 0x10000003]) := by decide +kernel
theorem test_sw :
    ran 0x00732023 mem0 (fun t => (t.byte 0x10000000#32, t.byte 0x10000001#32, t.byte 0x10000002#32, t.byte 0x10000003#32, t.stale)) = some (0xAB#8, 0x56#8, 0x34#8, 0x12#8, [0x10000000, 0x10000001, 0x10000002, 0x10000003]) := by decide +kernel
theorem test_sw_most_negative_offset :
    ran 0x80732023 (State.xs mem0 [(6#5, 0x10000800#32)]) (fun t => (t.byte 0x10000000#32, t.byte 0x10000001#32, t.byte 0x10000002#32, t.byte 0x10000003#32, t.stale)) = some (0xAB#8, 0x56#8, 0x34#8, 0x12#8, [0x10000000, 0x10000001, 0x10000002, 0x10000003]) := by decide +kernel
theorem test_sh_misaligned :
    trapOf 0x007311A3 mem0 = some (⟨.storeAddressMisaligned, 0x10000003#32⟩, 0x00000000#32, 0x00400100#32) := by decide +kernel
theorem test_sw_not_writable :
    trapOf 0x00732023 (State.xs mem0 [(6#5, 0x00400000#32)]) = some (⟨.storeAccessFault, 0x00400000#32⟩, 0x00000000#32, 0x00400100#32) := by decide +kernel
-- a stored 0 leaves no entry (log 5)
theorem test_zero_byte_stays_canonical :
    ran 0x000300A3 mem0 (fun t => (t.byte 0x10000001#32, decide (Memory.wf t.mem))) = some (0#8, true) := by decide +kernel

/-! ### System instructions and CSRs (section 2.4) -/

theorem test_ecall :
    trapOf 0x00000073 base = some (⟨.environmentCall, 0x00000000#32⟩, 0x00000000#32, 0x00400100#32) := by decide +kernel
theorem test_ebreak :
    trapOf 0x00100073 base = some (⟨.breakpoint, 0x00400100#32⟩, 0x00000000#32, 0x00400100#32) := by decide +kernel
theorem test_fence :
    ran 0x0FF0000F base x5 = some (0#32, 0x00400104#32) := by decide +kernel
theorem test_fence_i :
    ran 0x0000100F { base with stale := [0x10000000, 0x10000001] } (fun t => t.stale) = some [] := by decide +kernel
theorem test_csr_absent :
    trapOf 0x340312F3 base = some (⟨.illegalInstruction, 0x340312F3#32⟩, 0x00000000#32, 0x00400100#32) := by decide +kernel
theorem test_csrrw :
    ran 0x340312F3 (csr0 0x0000FF00#32 true 0xFFFFFFFF#32 0x12345678#32) (fun t => (t.readX 5#5, t.csrs.map (·.2.value))) = some (0x0000FF00#32, [0x12345678#32]) := by decide +kernel
theorem test_csrrw_masked :
    ran 0x340312F3 (csr0 0x0000FF00#32 true 0x000000FF#32 0x12345678#32) (fun t => (t.readX 5#5, t.csrs.map (·.2.value))) = some (0x0000FF00#32, [0x0000FF78#32]) := by decide +kernel
theorem test_csrrs :
    ran 0x340322F3 (csr0 0x0000FF00#32 true 0xFFFFFFFF#32 0x0000000F#32) (fun t => (t.readX 5#5, t.csrs.map (·.2.value))) = some (0x0000FF00#32, [0x0000FF0F#32]) := by decide +kernel
theorem test_csrrs_x0_reads_read_only :
    ran 0x340022F3 (csr0 0x0000FF00#32 false 0xFFFFFFFF#32 0#32) (fun t => (t.readX 5#5, t.csrs.map (·.2.value))) = some (0x0000FF00#32, [0x0000FF00#32]) := by decide +kernel
theorem test_csrrc :
    ran 0x340332F3 (csr0 0x0000FF00#32 true 0xFFFFFFFF#32 0x0000F000#32) (fun t => (t.readX 5#5, t.csrs.map (·.2.value))) = some (0x0000FF00#32, [0x00000F00#32]) := by decide +kernel
theorem test_csrrwi :
    ran 0x340FD2F3 (csr0 0x0000FF00#32 true 0xFFFFFFFF#32 0#32) (fun t => (t.readX 5#5, t.csrs.map (·.2.value))) = some (0x0000FF00#32, [0x0000001F#32]) := by decide +kernel
theorem test_csrrsi :
    ran 0x3400E2F3 (csr0 0x0000FF00#32 true 0xFFFFFFFF#32 0#32) (fun t => (t.readX 5#5, t.csrs.map (·.2.value))) = some (0x0000FF00#32, [0x0000FF01#32]) := by decide +kernel
theorem test_csrrci :
    ran 0x3401F2F3 (csr0 0x0000FF07#32 true 0xFFFFFFFF#32 0#32) (fun t => (t.readX 5#5, t.csrs.map (·.2.value))) = some (0x0000FF07#32, [0x0000FF04#32]) := by decide +kernel
-- the field rs1 decides, not the value
theorem test_csrrs_read_only_field_not_x0 :
    trapOf 0x340322F3 (csr0 0x0000FF00#32 false 0xFFFFFFFF#32 0#32) = some (⟨.illegalInstruction, 0x340322F3#32⟩, 0x00000000#32, 0x00400100#32) := by decide +kernel
theorem test_csrrw_swap :
    ran 0x340292F3 (State.xs (csr0 0x0000FF00#32 true 0xFFFFFFFF#32 0#32) [(5#5, 0xAAAA5555#32)]) (fun t => (t.readX 5#5, t.csrs.map (·.2.value))) = some (0x0000FF00#32, [0xAAAA5555#32]) := by decide +kernel
-- 10_state.md R38: a fresh value, whatever it is
theorem test_csr_volatile_draws :
    ran 0x340022F3 { base with csrs := [(0x340#12, { value := 0#32, writable := true, wmask := 0#32, volatile := true })] } (fun t => (decide (t.readX 5#5 = Config.csrDraw 0), t.draws)) = some (true, 1) := by
  have h : decide (Config.csrDraw 0 = Config.csrDraw 0) = true := by simp
  exact congrArg (fun b => some (b, 1)) h
-- 10_state.md R35: csrrw x5, fcsr, x6
theorem test_fcsr_windows :
    ran 0x003312F3 (State.xs base [(6#5, 0xFFFFFFFF#32)]) (fun t => (t.fflags, t.frm, t.fcsr)) = some (0x1F#5, 7#3, 0x000000FF#32) := by decide +kernel

/-! ### Multiply and divide (section 2.5) -/

theorem test_mul :
    ran 0x027302B3 (State.xs base [(6#5, 0x7FFFFFFF#32), (7#5, 0xFFFFFFFF#32)]) x5 = some (0x80000001#32, 0x00400104#32) := by decide +kernel
theorem test_mulh :
    ran 0x027312B3 (State.xs base [(6#5, 0x80000000#32), (7#5, 0x80000000#32)]) x5 = some (0x40000000#32, 0x00400104#32) := by decide +kernel
theorem test_mulh_negative :
    ran 0x027312B3 (State.xs base [(6#5, 0xFFFFFFFF#32), (7#5, 0x00000002#32)]) x5 = some (0xFFFFFFFF#32, 0x00400104#32) := by decide +kernel
theorem test_mulhsu :
    ran 0x027322B3 (State.xs base [(6#5, 0x80000000#32), (7#5, 0x80000000#32)]) x5 = some (0xC0000000#32, 0x00400104#32) := by decide +kernel
theorem test_mulhsu_rs1_signed :
    ran 0x027322B3 (State.xs base [(6#5, 0x00000002#32), (7#5, 0xFFFFFFFF#32)]) x5 = some (0x00000001#32, 0x00400104#32) := by decide +kernel
theorem test_mulhu :
    ran 0x027332B3 (State.xs base [(6#5, 0xFFFFFFFF#32), (7#5, 0xFFFFFFFF#32)]) x5 = some (0xFFFFFFFE#32, 0x00400104#32) := by decide +kernel
theorem test_div_toward_zero :
    ran 0x027342B3 (State.xs base [(6#5, 0xFFFFFFF9#32), (7#5, 0x00000002#32)]) x5 = some (0xFFFFFFFD#32, 0x00400104#32) := by decide +kernel
theorem test_div_overflow :
    ran 0x027342B3 (State.xs base [(6#5, 0x80000000#32), (7#5, 0xFFFFFFFF#32)]) x5 = some (0x80000000#32, 0x00400104#32) := by decide +kernel
theorem test_divu :
    ran 0x027352B3 (State.xs base [(6#5, 0xFFFFFFF9#32), (7#5, 0x00000002#32)]) x5 = some (0x7FFFFFFC#32, 0x00400104#32) := by decide +kernel
theorem test_divu_by_zero :
    ran 0x027352B3 (State.xs base [(6#5, 0x12345678#32), (7#5, 0x00000000#32)]) x5 = some (0xFFFFFFFF#32, 0x00400104#32) := by decide +kernel
theorem test_rem_sign :
    ran 0x027362B3 (State.xs base [(6#5, 0xFFFFFFF9#32), (7#5, 0x00000002#32)]) x5 = some (0xFFFFFFFF#32, 0x00400104#32) := by decide +kernel
theorem test_rem_by_zero :
    ran 0x027362B3 (State.xs base [(6#5, 0x12345678#32), (7#5, 0x00000000#32)]) x5 = some (0x12345678#32, 0x00400104#32) := by decide +kernel
theorem test_remu :
    ran 0x027372B3 (State.xs base [(6#5, 0x80000000#32), (7#5, 0xFFFFFFFF#32)]) x5 = some (0x80000000#32, 0x00400104#32) := by decide +kernel
-- 30_encoding.md R104
theorem test_m_not_admitted :
    trapOf 0x027302B3 (State.with_ base fun p => { p with extM := false }) = some (⟨.illegalInstruction, 0x027302B3#32⟩, 0#32, 0x00400100#32) := by decide +kernel

/-! ### Floating point (section 2.6, and the examples of 45_fd_float.md) -/

theorem test_fadd_s_up :
    ran 0x0020B1D3 (State.fs base [(1#5, box 0x3F800000#32), (2#5, box 0x33800000#32)]) f3fl = some (box 0x3F800001#32, 0x00000001#32, 0x00400104#32) := by decide +kernel
theorem test_fadd_s_dynamic :
    ran 0x0020F1D3 { (State.fs base [(1#5, box 0x3F800000#32), (2#5, box 0x33800000#32)]) with fcsr := 0x00000020#32 } f3fl = some (box 0x3F800000#32, 0x00000021#32, 0x00400104#32) := by decide +kernel
theorem test_fadd_d :
    ran 0x0220F1D3 (State.fs base [(1#5, 0x3FF0000000000000#64), (2#5, 0x4000000000000000#64)]) f3fl = some (0x4008000000000000#64, 0x00000000#32, 0x00400104#32) := by decide +kernel
theorem test_fsub_s_inf :
    ran 0x0820F1D3 (State.fs base [(1#5, box 0x7F800000#32), (2#5, box 0x7F800000#32)]) f3fl = some (box 0x7FC00000#32, 0x00000010#32, 0x00400104#32) := by decide +kernel
theorem test_fsub_s :
    ran 0x0820F1D3 (State.fs base [(1#5, box 0x40400000#32), (2#5, box 0x3F800000#32)]) f3fl = some (box 0x40000000#32, 0x00000000#32, 0x00400104#32) := by decide +kernel
theorem test_fsub_d :
    ran 0x0A20F1D3 (State.fs base [(1#5, 0x4008000000000000#64), (2#5, 0x3FF0000000000000#64)]) f3fl = some (0x4000000000000000#64, 0x00000000#32, 0x00400104#32) := by decide +kernel
theorem test_fmul_s_overflow :
    ran 0x1020F1D3 (State.fs base [(1#5, box 0x7F7FFFFF#32), (2#5, box 0x40000000#32)]) f3fl = some (box 0x7F800000#32, 0x00000005#32, 0x00400104#32) := by decide +kernel
theorem test_fmul_s_underflow :
    ran 0x1020F1D3 (State.fs base [(1#5, box 0x00000001#32), (2#5, box 0x3F000000#32)]) f3fl = some (box 0x00000000#32, 0x00000003#32, 0x00400104#32) := by decide +kernel
theorem test_fmul_d :
    ran 0x1220F1D3 (State.fs base [(1#5, 0x3FF8000000000000#64), (2#5, 0x4000000000000000#64)]) f3fl = some (0x4008000000000000#64, 0x00000000#32, 0x00400104#32) := by decide +kernel
theorem test_fdiv_s_accrues :
    ran 0x1820F1D3 { (State.fs base [(1#5, box 0xBF800000#32), (2#5, box 0x00000000#32)]) with fcsr := 0x00000001#32 } f3fl = some (box 0xFF800000#32, 0x00000009#32, 0x00400104#32) := by decide +kernel
theorem test_fdiv_s :
    ran 0x1820F1D3 (State.fs base [(1#5, box 0x3F800000#32), (2#5, box 0x40400000#32)]) f3fl = some (box 0x3EAAAAAB#32, 0x00000001#32, 0x00400104#32) := by decide +kernel
theorem test_fdiv_d :
    ran 0x1A20F1D3 (State.fs base [(1#5, 0x4008000000000000#64), (2#5, 0x4000000000000000#64)]) f3fl = some (0x3FF8000000000000#64, 0x00000000#32, 0x00400104#32) := by decide +kernel
theorem test_fsqrt_s :
    ran 0x5800F1D3 (State.fs base [(1#5, box 0x40000000#32)]) f3fl = some (box 0x3FB504F3#32, 0x00000001#32, 0x00400104#32) := by decide +kernel
theorem test_fsqrt_s_minus_zero :
    ran 0x5800F1D3 (State.fs base [(1#5, box 0x80000000#32)]) f3fl = some (box 0x80000000#32, 0x00000000#32, 0x00400104#32) := by decide +kernel
theorem test_fsqrt_d :
    ran 0x5A00F1D3 (State.fs base [(1#5, 0x4010000000000000#64)]) f3fl = some (0x4000000000000000#64, 0x00000000#32, 0x00400104#32) := by decide +kernel
theorem test_fmadd_s :
    ran 0x1820F243 (State.fs base [(1#5, box 0x40000000#32), (2#5, box 0x40400000#32), (3#5, box 0x3F800000#32)]) f4fl = some (box 0x40E00000#32, 0x00000000#32, 0x00400104#32) := by decide +kernel
theorem test_fmsub_s :
    ran 0x1820F247 (State.fs base [(1#5, box 0x40000000#32), (2#5, box 0x40400000#32), (3#5, box 0x3F800000#32)]) f4fl = some (box 0x40A00000#32, 0x00000000#32, 0x00400104#32) := by decide +kernel
theorem test_fnmsub_s :
    ran 0x1820F24B (State.fs base [(1#5, box 0x40000000#32), (2#5, box 0x40400000#32), (3#5, box 0x3F800000#32)]) f4fl = some (box 0xC0A00000#32, 0x00000000#32, 0x00400104#32) := by decide +kernel
theorem test_fnmadd_s :
    ran 0x1820F24F (State.fs base [(1#5, box 0x40000000#32), (2#5, box 0x40400000#32), (3#5, box 0x3F800000#32)]) f4fl = some (box 0xC0E00000#32, 0x00000000#32, 0x00400104#32) := by decide +kernel
theorem test_fmadd_d :
    ran 0x1A20F243 (State.fs base [(1#5, 0x4000000000000000#64), (2#5, 0x4008000000000000#64), (3#5, 0x3FF0000000000000#64)]) f4fl = some (0x401C000000000000#64, 0x00000000#32, 0x00400104#32) := by decide +kernel
theorem test_fmsub_d :
    ran 0x1A20F247 (State.fs base [(1#5, 0x4000000000000000#64), (2#5, 0x4008000000000000#64), (3#5, 0x3FF0000000000000#64)]) f4fl = some (0x4014000000000000#64, 0x00000000#32, 0x00400104#32) := by decide +kernel
theorem test_fnmsub_d :
    ran 0x1A20F24B (State.fs base [(1#5, 0x4000000000000000#64), (2#5, 0x4008000000000000#64), (3#5, 0x3FF0000000000000#64)]) f4fl = some (0xC014000000000000#64, 0x00000000#32, 0x00400104#32) := by decide +kernel
theorem test_fnmadd_d :
    ran 0x1A20F24F (State.fs base [(1#5, 0x4000000000000000#64), (2#5, 0x4008000000000000#64), (3#5, 0x3FF0000000000000#64)]) f4fl = some (0xC01C000000000000#64, 0x00000000#32, 0x00400104#32) := by decide +kernel
theorem test_fnmsub_s_zero :
    ran 0x1820F24B (State.fs base [(1#5, box 0x40000000#32), (2#5, box 0x40400000#32), (3#5, box 0x40C00000#32)]) f4fl = some (box 0x00000000#32, 0x00000000#32, 0x00400104#32) := by decide +kernel
theorem test_fsgnj_s_payload :
    ran 0x202081D3 (State.fs base [(1#5, box 0x7FC12345#32), (2#5, box 0xC0000000#32)]) f3fl = some (box 0xFFC12345#32, 0x00000000#32, 0x00400104#32) := by decide +kernel
theorem test_fsgnjn_s :
    ran 0x202091D3 (State.fs base [(1#5, box 0x3F800000#32), (2#5, box 0xC0000000#32)]) f3fl = some (box 0x3F800000#32, 0x00000000#32, 0x00400104#32) := by decide +kernel
theorem test_fsgnjx_s :
    ran 0x2020A1D3 (State.fs base [(1#5, box 0xBF800000#32), (2#5, box 0xC0000000#32)]) f3fl = some (box 0x3F800000#32, 0x00000000#32, 0x00400104#32) := by decide +kernel
theorem test_fsgnj_d :
    ran 0x222081D3 (State.fs base [(1#5, 0x3FF0000000000000#64), (2#5, 0xC000000000000000#64)]) f3fl = some (0xBFF0000000000000#64, 0x00000000#32, 0x00400104#32) := by decide +kernel
theorem test_fsgnjn_d :
    ran 0x222091D3 (State.fs base [(1#5, 0x3FF0000000000000#64), (2#5, 0x3FF0000000000000#64)]) f3fl = some (0xBFF0000000000000#64, 0x00000000#32, 0x00400104#32) := by decide +kernel
theorem test_fsgnjx_d :
    ran 0x2220A1D3 (State.fs base [(1#5, 0xBFF0000000000000#64), (2#5, 0x4000000000000000#64)]) f3fl = some (0xBFF0000000000000#64, 0x00000000#32, 0x00400104#32) := by decide +kernel
theorem test_fmin_s_zeros :
    ran 0x282081D3 (State.fs base [(1#5, box 0x80000000#32), (2#5, box 0x00000000#32)]) f3fl = some (box 0x80000000#32, 0x00000000#32, 0x00400104#32) := by decide +kernel
theorem test_fmin_s_signaling :
    ran 0x282081D3 (State.fs base [(1#5, box 0x7F800001#32), (2#5, box 0x3F800000#32)]) f3fl = some (box 0x3F800000#32, 0x00000010#32, 0x00400104#32) := by decide +kernel
theorem test_fmax_s_zeros :
    ran 0x282091D3 (State.fs base [(1#5, box 0x80000000#32), (2#5, box 0x00000000#32)]) f3fl = some (box 0x00000000#32, 0x00000000#32, 0x00400104#32) := by decide +kernel
theorem test_fmax_s_nans :
    ran 0x282091D3 (State.fs base [(1#5, box 0x7FC12345#32), (2#5, box 0xFFC00000#32)]) f3fl = some (box 0x7FC00000#32, 0x00000000#32, 0x00400104#32) := by decide +kernel
theorem test_fmin_d :
    ran 0x2A2081D3 (State.fs base [(1#5, 0x3FF0000000000000#64), (2#5, 0xC000000000000000#64)]) f3fl = some (0xC000000000000000#64, 0x00000000#32, 0x00400104#32) := by decide +kernel
theorem test_fmax_d :
    ran 0x2A2091D3 (State.fs base [(1#5, 0x3FF0000000000000#64), (2#5, 0xC000000000000000#64)]) f3fl = some (0x3FF0000000000000#64, 0x00000000#32, 0x00400104#32) := by decide +kernel
theorem test_feq_s_zeros :
    ran 0xA020A2D3 (State.fs base [(1#5, box 0x00000000#32), (2#5, box 0x80000000#32)]) x5fl = some (0x00000001#32, 0x00000000#32, 0x00400104#32) := by decide +kernel
theorem test_feq_s_signaling :
    ran 0xA020A2D3 (State.fs base [(1#5, box 0x7F800001#32), (2#5, box 0x3F800000#32)]) x5fl = some (0x00000000#32, 0x00000010#32, 0x00400104#32) := by decide +kernel
theorem test_flt_s_quiet :
    ran 0xA02092D3 (State.fs base [(1#5, box 0x7FC00000#32), (2#5, box 0x3F800000#32)]) x5fl = some (0x00000000#32, 0x00000010#32, 0x00400104#32) := by decide +kernel
theorem test_flt_s_infinities :
    ran 0xA02092D3 (State.fs base [(1#5, box 0xFF800000#32), (2#5, box 0x7F800000#32)]) x5fl = some (0x00000001#32, 0x00000000#32, 0x00400104#32) := by decide +kernel
theorem test_fle_s :
    ran 0xA02082D3 (State.fs base [(1#5, box 0x3F800000#32), (2#5, box 0x3F800000#32)]) x5fl = some (0x00000001#32, 0x00000000#32, 0x00400104#32) := by decide +kernel
theorem test_feq_d :
    ran 0xA220A2D3 (State.fs base [(1#5, 0x3FF0000000000000#64), (2#5, 0x4000000000000000#64)]) x5fl = some (0x00000000#32, 0x00000000#32, 0x00400104#32) := by decide +kernel
theorem test_flt_d :
    ran 0xA22092D3 (State.fs base [(1#5, 0x4000000000000000#64), (2#5, 0x3FF0000000000000#64)]) x5fl = some (0x00000000#32, 0x00000000#32, 0x00400104#32) := by decide +kernel
theorem test_fle_d :
    ran 0xA22082D3 (State.fs base [(1#5, 0x4000000000000000#64), (2#5, 0x3FF0000000000000#64)]) x5fl = some (0x00000000#32, 0x00000000#32, 0x00400104#32) := by decide +kernel
theorem test_fclass_s_subnormal :
    ran 0xE00092D3 (State.fs base [(1#5, box 0x80000001#32)]) x5fl = some (0x00000004#32, 0x00000000#32, 0x00400104#32) := by decide +kernel
theorem test_fclass_s_not_boxed :
    ran 0xE00092D3 (State.fs base [(1#5, 0x000000003F800000#64)]) x5fl = some (0x00000200#32, 0x00000000#32, 0x00400104#32) := by decide +kernel
theorem test_fclass_d :
    ran 0xE20092D3 (State.fs base [(1#5, 0x7FF0000000000000#64)]) x5fl = some (0x00000080#32, 0x00000000#32, 0x00400104#32) := by decide +kernel
theorem test_fmv_s_x :
    ran 0xF00300D3 (State.xs base [(6#5, 0x3F800000#32)]) f1fl = some (box 0x3F800000#32, 0#32, 0x00400104#32) := by decide +kernel
theorem test_fmv_x_s_not_boxed :
    ran 0xE00082D3 (State.fs base [(1#5, 0x000000003F800000#64)]) x5fl = some (0x3F800000#32, 0x00000000#32, 0x00400104#32) := by decide +kernel
theorem test_fcvt_d_s :
    ran 0x420081D3 (State.fs base [(1#5, box 0x3FC00000#32)]) f3fl = some (0x3FF8000000000000#64, 0x00000000#32, 0x00400104#32) := by decide +kernel
theorem test_fcvt_d_s_signaling :
    ran 0x420081D3 (State.fs base [(1#5, box 0x7F800001#32)]) f3fl = some (0x7FF8000000000000#64, 0x00000010#32, 0x00400104#32) := by decide +kernel
theorem test_fcvt_s_d :
    ran 0x401081D3 (State.fs base [(1#5, 0x3FF0000000000001#64)]) f3fl = some (box 0x3F800000#32, 0x00000001#32, 0x00400104#32) := by decide +kernel
theorem test_fcvt_s_d_overflow :
    ran 0x401081D3 (State.fs base [(1#5, 0x7FEFFFFFFFFFFFFF#64)]) f3fl = some (box 0x7F800000#32, 0x00000005#32, 0x00400104#32) := by decide +kernel
theorem test_fcvt_w_s_saturates :
    ran 0xC000F2D3 (State.fs base [(1#5, box 0x4F000000#32)]) x5fl = some (0x7FFFFFFF#32, 0x00000010#32, 0x00400104#32) := by decide +kernel
theorem test_fcvt_w_s_toward_zero :
    ran 0xC00092D3 (State.fs base [(1#5, box 0xBFC00000#32)]) x5fl = some (0xFFFFFFFF#32, 0x00000001#32, 0x00400104#32) := by decide +kernel
theorem test_fcvt_wu_s :
    ran 0xC01082D3 (State.fs base [(1#5, box 0x4F000000#32)]) x5fl = some (0x80000000#32, 0x00000000#32, 0x00400104#32) := by decide +kernel
theorem test_fcvt_wu_s_negative :
    ran 0xC01092D3 (State.fs base [(1#5, box 0xBE800000#32)]) x5fl = some (0x00000000#32, 0x00000001#32, 0x00400104#32) := by decide +kernel
theorem test_fcvt_w_d_toward_zero :
    ran 0xC20092D3 (State.fs base [(1#5, 0x41DFFFFFFFE00000#64)]) x5fl = some (0x7FFFFFFF#32, 0x00000001#32, 0x00400104#32) := by decide +kernel
theorem test_fcvt_w_d_out_of_range :
    ran 0xC20082D3 (State.fs base [(1#5, 0x41DFFFFFFFE00000#64)]) x5fl = some (0x7FFFFFFF#32, 0x00000010#32, 0x00400104#32) := by decide +kernel
theorem test_fcvt_wu_d :
    ran 0xC21092D3 (State.fs base [(1#5, 0x41EFFFFFFFE00000#64)]) x5fl = some (0xFFFFFFFF#32, 0x00000000#32, 0x00400104#32) := by decide +kernel
theorem test_fcvt_s_w_inexact :
    ran 0xD00300D3 (State.xs base [(6#5, 0x01000001#32)]) f1fl = some (box 0x4B800000#32, 0x00000001#32, 0x00400104#32) := by decide +kernel
theorem test_fcvt_s_w :
    ran 0xD00370D3 (State.xs base [(6#5, 0xFFFFFFFF#32)]) f1fl = some (box 0xBF800000#32, 0x00000000#32, 0x00400104#32) := by decide +kernel
theorem test_fcvt_s_wu :
    ran 0xD01300D3 (State.xs base [(6#5, 0xFFFFFFFF#32)]) f1fl = some (box 0x4F800000#32, 0x00000001#32, 0x00400104#32) := by decide +kernel
theorem test_fcvt_d_w :
    ran 0xD20300D3 (State.xs base [(6#5, 0xFFFFFFFF#32)]) f1fl = some (0xBFF0000000000000#64, 0x00000000#32, 0x00400104#32) := by decide +kernel
theorem test_fcvt_d_wu :
    ran 0xD21300D3 (State.xs base [(6#5, 0xFFFFFFFF#32)]) f1fl = some (0x41EFFFFFFFE00000#64, 0x00000000#32, 0x00400104#32) := by decide +kernel
theorem test_flw :
    ran 0x00032087 (word0 0x3F800000#32 0#32) f1fl = some (box 0x3F800000#32, 0#32, 0x00400104#32) := by decide +kernel
theorem test_fld :
    ran 0x00833087 (State.bytesAt mem0 0x1000000E#32 [0xF0#8, 0x3F#8]) f1fl = some (0x3FF0000000000000#64, 0#32, 0x00400104#32) := by decide +kernel
theorem test_fld_misaligned :
    (trapOf 0x00433087 mem0).map (·.1) = some ⟨.loadAddressMisaligned, 0x10000004#32⟩ := by decide +kernel
theorem test_fsw_not_boxed :
    ran 0x00232227 (State.fs mem0 [(2#5, 0x1234567840000000#64)]) (fun t => t.read32 0x10000004#32) = some 0x40000000#32 := by decide +kernel
theorem test_fsd :
    ran 0x00233827 (State.fs mem0 [(2#5, 0x4000000000000000#64)]) (fun t => (t.byte 0x10000017#32, t.read64 0x10000010#32)) = some (0x40#8, 0x4000000000000000#64) := by decide +kernel
theorem test_reserved_rm :
    (trapOf 0x0020D1D3 base).map (·.1) = some ⟨.illegalInstruction, 0x0020D1D3#32⟩ := by decide +kernel
theorem test_reserved_frm :
    (trapOf 0x0020F1D3 { base with fcsr := 0xA0#32 }).map (·.1) = some ⟨.illegalInstruction, 0x0020F1D3#32⟩ := by decide +kernel
theorem test_d_not_admitted :
    (trapOf 0x0220F1D3 (State.with_ base fun p => { p with extD := false })).map (·.1) = some ⟨.illegalInstruction, 0x0220F1D3#32⟩ := by decide +kernel
theorem test_flen_32_no_box :
    ran 0x0020F1D3 (State.fs (State.with_ base fun p => { p with extD := false }) [(1#5, 0x3F800000#64), (2#5, 0x40000000#64)]) (fun t => t.readD 3#5) = some 0x40400000#64 := by decide +kernel

/-- The rows that need XLEN = 64 take IllegalInstruction with every group admitted (R104; the examples of their rules). -/
theorem test_rows_that_need_xlen_64 :
    [0xF20300D3, 0xE20082D3, 0xD02370D3, 0xD22370D3, 0xD03370D3, 0xD23370D3, 0xC02092D3, 0xC22092D3, 0xC03092D3, 0xC23092D3, 0x047332AF, 0x647332AF, 0xA47332AF, 0xE47332AF, 0x847332AF, 0xC47332AF, 0x447332AF, 0x0C7332AF, 0x247332AF, 0x120332AF, 0x1C7332AF].all (fun w => decide ((trapOf w base).map (·.1) = some ⟨.illegalInstruction, BitVec.ofNat 32 w⟩)) = true := by
  decide +kernel

/-! ### Atomics (section 2.7) -/

theorem test_amoadd_w :
    ran 0x067322AF (word0 0xFFFFFFFF#32 0x00000002#32) (fun t => (t.readX 5#5, t.wordAt 0x10000000#32)) = some (0xFFFFFFFF#32, 0x00000001#32) := by decide +kernel
theorem test_amoswap_w :
    ran 0x087322AF (word0 0x11111111#32 0x22222222#32) (fun t => (t.readX 5#5, t.wordAt 0x10000000#32)) = some (0x11111111#32, 0x22222222#32) := by decide +kernel
theorem test_amoxor_w :
    ran 0x207322AF (word0 0xFF00FF00#32 0x0FF00FF0#32) (fun t => (t.readX 5#5, t.wordAt 0x10000000#32)) = some (0xFF00FF00#32, 0xF0F0F0F0#32) := by decide +kernel
theorem test_amoor_w :
    ran 0x407322AF (word0 0xFF00FF00#32 0x0FF00FF0#32) (fun t => (t.readX 5#5, t.wordAt 0x10000000#32)) = some (0xFF00FF00#32, 0xFFF0FFF0#32) := by decide +kernel
theorem test_amoand_w :
    ran 0x607322AF (word0 0xFF00FF00#32 0x0FF00FF0#32) (fun t => (t.readX 5#5, t.wordAt 0x10000000#32)) = some (0xFF00FF00#32, 0x0F000F00#32) := by decide +kernel
theorem test_amomin_w :
    ran 0x807322AF (word0 0xFFFFFFFF#32 0x00000001#32) (fun t => (t.readX 5#5, t.wordAt 0x10000000#32)) = some (0xFFFFFFFF#32, 0xFFFFFFFF#32) := by decide +kernel
theorem test_amominu_w :
    ran 0xC07322AF (word0 0xFFFFFFFF#32 0x00000001#32) (fun t => (t.readX 5#5, t.wordAt 0x10000000#32)) = some (0xFFFFFFFF#32, 0x00000001#32) := by decide +kernel
theorem test_amomax_w :
    ran 0xA07322AF (word0 0xFFFFFFFF#32 0x00000001#32) (fun t => (t.readX 5#5, t.wordAt 0x10000000#32)) = some (0xFFFFFFFF#32, 0x00000001#32) := by decide +kernel
theorem test_amomaxu_w :
    ran 0xE07322AF (word0 0xFFFFFFFF#32 0x00000001#32) (fun t => (t.readX 5#5, t.wordAt 0x10000000#32)) = some (0xFFFFFFFF#32, 0xFFFFFFFF#32) := by decide +kernel
theorem test_amo_source_is_dest :
    ran 0x007323AF (word0 10#32 5#32) (fun t => (t.readX 7#5, t.wordAt 0x10000000#32)) = some (10#32, 15#32) := by decide +kernel
theorem test_amo_misaligned_even_if_supported :
    trapOf 0x007322AF (State.with_ (State.xs base [(6#5, 0x10000002#32)]) fun p => { p with misaligned := .support }) = some (⟨.storeAddressMisaligned, 0x10000002#32⟩, 0x00000000#32, 0x00400100#32) := by decide +kernel
theorem test_amo_not_writable :
    trapOf 0x007322AF (State.xs base [(6#5, 0x00400000#32)]) = some (⟨.storeAccessFault, 0x00400000#32⟩, 0x00000000#32, 0x00400100#32) := by decide +kernel
theorem test_lr_w :
    ran 0x100322AF (word0 5#32 9#32) (fun t => (t.readX 5#5, t.reservation)) = some (5#32, some 0x10000000#32) := by decide +kernel
theorem test_lr_w_misaligned :
    (trapOf 0x100322AF (State.xs base [(6#5, 0x10000001#32)])).map (·.1) = some ⟨.loadAddressMisaligned, 0x10000001#32⟩ := by decide +kernel
theorem test_sc_w_fails :
    ran 0x187322AF (word0 5#32 9#32) (fun t => (t.readX 5#5, t.wordAt 0x10000000#32)) = some (1#32, 5#32) := by decide +kernel
theorem test_sc_w_succeeds :
    ran 0x187322AF { word0 5#32 9#32 with reservation := some 0x10000000#32 } (fun t => (t.readX 5#5, t.wordAt 0x10000000#32, t.reservation)) = some (0#32, 9#32, none) := by decide +kernel
theorem test_sb_outside_granule_keeps_reservation :
    ran 0x00730223 { word0 5#32 9#32 with reservation := some 0x10000000#32 } (fun t => t.reservation) = some (some 0x10000000#32) := by decide +kernel
theorem test_sb_in_granule_clears_reservation :
    ran 0x007301A3 { word0 5#32 9#32 with reservation := some 0x10000000#32 } (fun t => t.reservation) = some none := by decide +kernel

/-! ### Fetch (section 2.9), reset and launch -/

/-- What one step answers, in short: a trap, a stale fetch, or the next pc. -/
def endsIn (s : State) : Option Trap × Option Word × Word :=
  match step s with
  | .next t => (t.trap, none, t.pc)
  | .fault (.staleFetch pc _) => (none, some pc, 0#32)
  | _ => (none, none, 0#32)

theorem test_fetch_zero_word :
    endsIn base = (some ⟨.illegalInstruction, 0#32⟩, none, 0x00400100#32) := by decide +kernel
theorem test_fetch_not_executable :
    endsIn { base with pc := 0x10000000#32 } = (some ⟨.instructionAccessFault, 0x10000000#32⟩, none, 0x10000000#32) := by decide +kernel
theorem test_fetch_last_word :
    endsIn (State.withFetchWord { base with pc := 0x00400FFC#32 } 32 0x13) = (none, none, 0x00401000#32) := by decide +kernel
theorem test_fetch_past_text :
    endsIn { base with pc := 0x00401000#32 } = (some ⟨.instructionAccessFault, 0x00401000#32⟩, none, 0x00401000#32) := by decide +kernel
-- also before decoding: the word there is illegal (60_exceptions.md R403)
theorem test_fetch_stale :
    endsIn { base with stale := [0x00400102] } = (none, some 0x00400100#32, 0#32) := by decide +kernel
theorem test_fetch_ended :
    (match step { base with trap := some ⟨.breakpoint, 0#32⟩ } with | .fault (.ended t) => some t | _ => none) = some ⟨.breakpoint, 0#32⟩ := by decide +kernel
theorem test_launch_default :
    launch defaultLaunch = .next State.reset := congrArg Host.Outcome.next (by decide +kernel : defaultLaunch.start = State.reset)

/-- A launch with the example of `add` as its program and one data block, over the default map; the program uses the stack,
`gp` and `ret`. -/
def loaded : Launch :=
  { defaultLaunch with
    program := [(0x00400000#32, [0x002081B3#32])], image := [(0x10000FFE#32, [0x34#8, 0x12#8])]
    x := (defaultX.set 3 0x10000800#32).set 1 0x00400000#32
    usesStack := true, gp := some 0x10000800#32, returnTo := some 0x00400000#32 }

-- 70_reset_and_hazards.md R442
theorem test_loaded_meets_requirements :
    loaded.meetsRequirements = true := by decide +kernel
-- R442: no program; no word at RESET_PC; a misaligned word; no X; no R and W; STACK_TOP past its region; x3 not set
theorem test_launch_requirements_fail :
    defaultLaunch.meetsRequirements = false ∧ Launch.meetsRequirements { loaded with resetPc := 0x00400004#32 } = false ∧
    Launch.meetsRequirements { loaded with program := [(0x00400002#32, [0x002081B3#32])], resetPc := 0x00400002#32 } = false ∧
    Launch.meetsRequirements { loaded with program := [(0x10000000#32, [0x002081B3#32])], resetPc := 0x10000000#32 } = false ∧
    Launch.meetsRequirements { loaded with image := [(0x10000FFF#32, [0x34#8, 0x12#8])] } = false ∧
    Launch.meetsRequirements { loaded with stackTop := 0x80000010#32 } = false ∧ Launch.meetsRequirements { loaded with gp := some 0#32 } = false := by decide +kernel
-- R442 (4)
theorem test_stack_top_at_the_upper_end :
    Launch.meetsRequirements { loaded with stackTop := 0x80000000#32 } = true := by decide +kernel
-- R442 (2), (3): little-endian
theorem test_launch_places_the_program :
    (match launch loaded with | .next t => some (t.byte 0x00400000#32, t.byte 0x00400003#32, t.read16 0x10000FFE#32, t.pc) | _ => none) = some (0xB3#8, 0x00#8, 0x1234#16, 0x00400000#32) := by decide +kernel
-- the first instruction of program 3.1, as the first after reset
theorem test_reset_then_withFetchWord :
    (match step (State.reset.withFetchWord 32 0x00A00293) with | .next t => some (t.readX 5#5, t.pc, t.trap) | _ => none) = some (10#32, 0x00400004#32, none) := by decide +kernel
theorem test_withFetchWord_keeps_params :
    (State.reset.withFetchWord 32 0x00A00293).params = State.reset.params := by decide +kernel

/-! ### Witnesses: states and operands that meet the hypotheses of the obligations, clause by clause -/

/-- A state ready to run `add x3, x1, x2`. -/
def ready : State := base.withFetchWord 32 0x002081B3
/-- Only the base group, misaligned data faults. -/
def plain : State := { base with params := defaultParams }
/-- Misaligned data supported. -/
def lenient : State := State.with_ base fun p => { p with misaligned := .support }
/-- `mem0` with one CSR of each kind: 0x340 writable, 0xC00 read-only, 0x7C0 volatile. -/
def csrs : State :=
  { State.xs base [(6#5, 1#32)] with
    csrs := [(0x340#12, { value := 0xFF00#32, writable := true, wmask := 0xFFFFFFFF#32, volatile := false }),
      (0x7C0#12, { value := 0#32, writable := true, wmask := 0#32, volatile := true }),
      (0xC00#12, { value := 7#32, writable := false, wmask := 0#32, volatile := false })] }
/-- x5 = 7FFFFFFF, x6 = 80000000, x7 = FFFFFFFF: the edges of both orders. -/
def edges : State := State.xs base [(5#5, 0x7FFFFFFF#32), (6#5, 0x80000000#32), (7#5, 0xFFFFFFFF#32)]
/-- A reservation of the word at x6 = 0x10000000. -/
def reserved : State := { word0 5#32 9#32 with reservation := some 0x10000000#32 }

theorem witness_DecodeOfEncode :
    (Instr.beq 1#5 2#5 0x1000#13).WellFormed ∧ (Instr.beq 1#5 2#5 0xFFE#13).WellFormed ∧ (Instr.jal 1#5 0x100000#21).WellFormed ∧ (Instr.add 31#5 0#5 31#5).WellFormed := by decide +kernel
theorem witness_EncodeOfDecode :
    decodeWord 0x800000EF#32 = .ok (.jal 1#5 0x100000#21) ∧ decodeWord 0xFFFFF2B7#32 = .ok (.lui 5#5 0xFFFFF#20) := by decide +kernel
theorem witness_DecoderReadsTheTable :
    decodeWord 0x0020F1D3#32 = .ok (.faddS 3#5 1#5 2#5 7#3) ∧ 0x0220F1D3#32 &&& (tableRow (.faddD 0#5 0#5 0#5 0#3)).1 = (tableRow (.faddD 0#5 0#5 0#5 0#3)).2 := by decide +kernel
theorem witness_UnlistedOpcodesAreIllegal :
    opcode 0x0000001B#32 ∉ [0x03#7, 0x0F#7, 0x13#7, 0x17#7, 0x23#7, 0x33#7, 0x37#7, 0x63#7, 0x67#7, 0x6F#7, 0x73#7, 0x2F#7, 0x07#7,
      0x27#7, 0x43#7, 0x47#7, 0x4B#7, 0x4F#7, 0x53#7] := by decide +kernel
theorem witness_StepRunsDecoded :
    ready.trap = none ∧ ready.fetchable ready.pc 4 ∧ ¬ ready.fetchIsStale ∧
    decode [ready.byte ready.pc, ready.byte (ready.pc + 1#32), ready.byte (ready.pc + 2#32), ready.byte (ready.pc + 3#32)] = .ok (.add 3#5 1#5 2#5, []) := by decide +kernel
/-- the last two of the four bytes lie past the region -/
theorem witness_FetchChecksInOrder_access :
    State.trap { base with pc := 0x00400FFE#32 } = none ∧ ¬ State.fetchable { base with pc := 0x00400FFE#32 } 0x00400FFE#32 4 := by decide +kernel
/-- the last of the four bytes is stale -/
theorem witness_FetchChecksInOrder_stale :
    State.trap { base with stale := [0x00400103] } = none ∧ State.fetchable { base with stale := [0x00400103] } base.pc 4 ∧ State.fetchIsStale { base with stale := [0x00400103] } := by decide +kernel
/-- the byte after the four is stale, and the word is 0 -/
theorem witness_FetchChecksInOrder_illegal :
    State.trap { base with stale := [0x00400104] } = none ∧ State.fetchable { base with stale := [0x00400104] } base.pc 4 ∧ ¬ State.fetchIsStale { base with stale := [0x00400104] } ∧ ∀ i, decodeWord (State.wordAt { base with stale := [0x00400104] } base.pc) ≠ .ok i := by
  refine ⟨rfl, by decide +kernel, by decide +kernel, fun i h => ?_⟩
  rw [show decodeWord (State.wordAt { base with stale := [0x00400104] } base.pc) = .error (.noRow 0#32) by decide +kernel] at h
  cases h
/-- taken, not taken, at the lowest offset an aligned and at the highest a misaligned target -/
theorem witness_Branches_beq :
    ((edges.readX 5#5) = (edges.readX 5#5)) ∧ ¬ ((edges.readX 5#5) = (edges.readX 6#5)) ∧ (edges.pc + (0x1000#13).signExtend 32).toNat % 4 = 0 ∧ (edges.pc + (0xFFE#13).signExtend 32).toNat % 4 ≠ 0 := by decide +kernel
/-- taken, not taken, at the lowest offset an aligned and at the highest a misaligned target -/
theorem witness_Branches_bne :
    ((edges.readX 5#5) ≠ (edges.readX 6#5)) ∧ ¬ ((edges.readX 5#5) ≠ (edges.readX 5#5)) ∧ (edges.pc + (0x1000#13).signExtend 32).toNat % 4 = 0 ∧ (edges.pc + (0xFFE#13).signExtend 32).toNat % 4 ≠ 0 := by decide +kernel
/-- taken, not taken, at the lowest offset an aligned and at the highest a misaligned target -/
theorem witness_Branches_blt :
    ((edges.readX 6#5).toInt < (edges.readX 5#5).toInt) ∧ ¬ ((edges.readX 5#5).toInt < (edges.readX 6#5).toInt) ∧ (edges.pc + (0x1000#13).signExtend 32).toNat % 4 = 0 ∧ (edges.pc + (0xFFE#13).signExtend 32).toNat % 4 ≠ 0 := by decide +kernel
/-- taken, not taken, at the lowest offset an aligned and at the highest a misaligned target -/
theorem witness_Branches_bge :
    ((edges.readX 6#5).toInt ≤ (edges.readX 5#5).toInt) ∧ ¬ ((edges.readX 5#5).toInt ≤ (edges.readX 6#5).toInt) ∧ (edges.pc + (0x1000#13).signExtend 32).toNat % 4 = 0 ∧ (edges.pc + (0xFFE#13).signExtend 32).toNat % 4 ≠ 0 := by decide +kernel
/-- taken, not taken, at the lowest offset an aligned and at the highest a misaligned target -/
theorem witness_Branches_bltu :
    ((edges.readX 5#5).toNat < (edges.readX 6#5).toNat) ∧ ¬ ((edges.readX 6#5).toNat < (edges.readX 5#5).toNat) ∧ (edges.pc + (0x1000#13).signExtend 32).toNat % 4 = 0 ∧ (edges.pc + (0xFFE#13).signExtend 32).toNat % 4 ≠ 0 := by decide +kernel
/-- taken, not taken, at the lowest offset an aligned and at the highest a misaligned target -/
theorem witness_Branches_bgeu :
    ((edges.readX 6#5).toNat ≤ (edges.readX 6#5).toNat) ∧ ¬ ((edges.readX 6#5).toNat ≤ (edges.readX 5#5).toNat) ∧ (edges.pc + (0x1000#13).signExtend 32).toNat % 4 = 0 ∧ (edges.pc + (0xFFE#13).signExtend 32).toNat % 4 ≠ 0 := by decide +kernel
theorem witness_Jumps :
    (base.pc + (0x100000#21).signExtend 32).toNat % 4 = 0 ∧ (base.pc + (0xFFFFE#21).signExtend 32).toNat % 4 ≠ 0 ∧
    ((edges.readX 5#5 + (0x7FF#12).signExtend 32) &&& 0xFFFFFFFE#32).toNat % 4 ≠ 0 ∧ ((edges.readX 6#5 + (0x001#12).signExtend 32) &&& 0xFFFFFFFE#32).toNat % 4 = 0 := by decide +kernel
/-- every branch taken and not taken, the offsets at the ends of their ranges -/
theorem witness_MisalignedTargets :
    edges.trap = none ∧ edges.pcAligned ∧ edges.readX 5#5 = edges.readX 5#5 ∧ edges.readX 5#5 ≠ edges.readX 6#5 ∧ (edges.readX 6#5).toInt < (edges.readX 5#5).toInt ∧
    (edges.readX 5#5).toNat < (edges.readX 6#5).toNat ∧ (0x1000#13).toNat % 4 = 0 ∧ (0xFFE#13).toNat % 4 = 2 ∧ (0x100000#21).toNat % 4 = 0 ∧ (0xFFFFE#21).toNat % 4 = 2 ∧
    (edges.readX 5#5 + (0x7FF#12).signExtend 32).getLsbD 1 = true ∧ (edges.readX 6#5 + (0x001#12).signExtend 32).getLsbD 1 = false := by
  unfold State.pcAligned
  decide +kernel
theorem witness_Loads_misaligned :
    ¬ plain.alignmentPasses 0x10000FFF#32 2 ∧ ¬ plain.alignmentPasses 0x10000FFE#32 4 ∧ ¬ plain.alignmentPasses 0x10000004#32 8 := by decide +kernel
/-- the first byte past a region, the word below one, and a word that straddles its end -/
theorem witness_Loads_access :
    plain.alignmentPasses 0x10001000#32 1 ∧ ¬ plain.readable 0x10001000#32 1 ∧ plain.alignmentPasses 0x0FFFFFFC#32 4 ∧ ¬ plain.readable 0x0FFFFFFC#32 4 ∧ lenient.alignmentPasses 0x10000FFD#32 4 ∧ ¬ lenient.readable 0x10000FFD#32 4 := by decide +kernel
/-- the last byte, halfword and word of a region, and a misaligned doubleword -/
theorem witness_Loads_complete :
    plain.alignmentPasses 0x10000FFF#32 1 ∧ plain.readable 0x10000FFF#32 1 ∧ plain.alignmentPasses 0x10000FFE#32 2 ∧ plain.readable 0x10000FFE#32 2 ∧ plain.alignmentPasses 0x00400FFC#32 4 ∧ plain.readable 0x00400FFC#32 4 ∧ lenient.alignmentPasses 0x10000FF5#32 8 ∧ lenient.readable 0x10000FF5#32 8 := by decide +kernel
theorem witness_Stores_access :
    plain.alignmentPasses 0x00400000#32 4 ∧ ¬ plain.writable 0x00400000#32 4 ∧ lenient.alignmentPasses 0x10000FFF#32 2 ∧ ¬ lenient.writable 0x10000FFF#32 2 := by decide +kernel
theorem witness_Stores_complete :
    plain.alignmentPasses 0x10000FFF#32 1 ∧ plain.writable 0x10000FFF#32 1 ∧ plain.alignmentPasses 0x10000FFE#32 2 ∧ plain.writable 0x10000FFE#32 2 ∧ plain.alignmentPasses 0x7FFFFFFC#32 4 ∧ plain.writable 0x7FFFFFFC#32 4 ∧ plain.alignmentPasses 0x10000FF8#32 8 ∧ plain.writable 0x10000FF8#32 8 := by decide +kernel
/-- the bytes on both sides of a store, at each width -/
theorem witness_MemoryReadsBackWrites :
    0x0FFFFFFF#32 ≠ 0x10000000#32 ∧ (∀ k < 2, 0x10000002#32 ≠ 0x10000000#32 + BitVec.ofNat 32 k) ∧ (∀ k < 4, 0x10000004#32 ≠ 0x10000000#32 + BitVec.ofNat 32 k) ∧ (∀ k < 8, 0x10000008#32 ≠ 0x10000000#32 + BitVec.ofNat 32 k) ∧
    ∀ k < 8, 0x0FFFFFFF#32 ≠ 0x10000000#32 + BitVec.ofNat 32 k := by decide +kernel
theorem witness_EqualMemoriesAreEqualData :
    Memory.wf [(0, 1#8), (0xFFFFFFFF, 2#8)] ∧ ∀ a : Nat, Memory.read [(0, 1#8), (0xFFFFFFFF, 2#8)] a = Memory.read [(0, 1#8), (0xFFFFFFFF, 2#8)] a := ⟨by decide +kernel, fun _ => rfl⟩
/-- absent; read-only, written and (with the field x0) only read; writable; volatile -/
theorem witness_CsrInstructions :
    csrs.csr 0x123#12 = none ∧
    csrs.csr 0xC00#12 = some { value := 7#32, writable := false, wmask := 0#32, volatile := false } ∧
    csrs.csr 0x340#12 = some { value := 0xFF00#32, writable := true, wmask := 0xFFFFFFFF#32, volatile := false } ∧
    csrs.csr 0x7C0#12 = some { value := 0#32, writable := true, wmask := 0#32, volatile := true } ∧ (0#5 ≠ 0#5 → (false : Bool) = true) := by decide +kernel
/-- FcsrWindows, Products, Quotients, the F, D and A statements -/
theorem witness_extensions_on :
    base.params.extM = true ∧ base.params.extA = true ∧ base.params.extF = true ∧ base.params.extD = true := by decide +kernel
/-- the excluded overflow, and its neighbour 7FFFFFFF / -1 -/
theorem witness_DivisionIdentity :
    edges.params.extM = true ∧ 5#5 ≠ 0#5 ∧ edges.readX 7#5 ≠ 0#32 ∧ (edges.readX 6#5 = 0x80000000#32 ∧ edges.readX 7#5 = 0xFFFFFFFF#32) ∧ ¬ (edges.readX 5#5 = 0x80000000#32 ∧ edges.readX 7#5 = 0xFFFFFFFF#32) := by decide +kernel
theorem witness_RowsNotAdmittedAreIllegal :
    Group.admitted (Instr.mul 5#5 6#5 7#5).group plain.params = false ∧ Group.admitted (Instr.lrW 5#5 6#5 0#1 0#1).group plain.params = false ∧ Group.admitted (Instr.flw 1#5 6#5 0#12).group plain.params = false ∧
    Group.admitted (Instr.fld 1#5 6#5 0#12).group { plain.params with extF := true } = false ∧ Group.admitted (Instr.fld 1#5 6#5 0#12).group { plain.params with extD := true } = false ∧ Group.admitted (Instr.scD 5#5 6#5 7#5 0#1 0#1).group base.params = false := by decide +kernel
/-- a named mode, and the dynamic one with frm at both ends -/
theorem witness_roundsIn :
    base.roundsIn 0b000#3 .nearestEven ∧ base.roundsIn 0b100#3 .nearestAway ∧ base.roundsIn 0b111#3 .nearestEven ∧ State.roundsIn { base with fcsr := 0x80#32 } 0b111#3 .nearestAway := by decide +kernel
theorem witness_ReservedRoundingModes :
    (Instr.faddS 3#5 1#5 2#5 0b101#3).rmField = some 0b101#3 ∧ base.rmReserved 0b101#3 ∧ (Instr.fmaddD 3#5 1#5 2#5 3#5 0b110#3).rmField = some 0b110#3 ∧ base.rmReserved 0b110#3 ∧
    (Instr.fcvtWS 5#5 1#5 0b111#3).rmField = some 0b111#3 ∧ State.rmReserved { base with fcsr := 0xA0#32 } 0b111#3 ∧ State.rmReserved { base with fcsr := 0xE0#32 } 0b111#3 ∧ ¬ State.rmReserved { base with fcsr := 0x80#32 } 0b111#3 ∧ base.roundsIn 0b010#3 .down := by decide +kernel
theorem witness_FlagsOnlyAccrue :
    (Instr.fdivS 3#5 1#5 2#5 0#3).isCsr = false ∧ (∃ t, exec (.fdivS 3#5 1#5 2#5 0#3) base = .next t) := ⟨rfl, ⟨_, rfl⟩⟩
/-- NanOperandsGiveTheCanonicalNan, MinMaxAndComparisons, ConversionsToIntegerSaturate, ClassMasks: the edges of the NaNs -/
theorem witness_nanS :
    nanS 0x7F800001#32 ∧ signalingS 0x7F800001#32 ∧ signalingS 0xFFBFFFFF#32 ∧ nanS 0x7FC00000#32 ∧ ¬ signalingS 0x7FC00000#32 ∧ nanS 0xFFFFFFFF#32 ∧ ¬ nanS 0x7F800000#32 ∧ ¬ nanS 0xFF800000#32 := by decide +kernel
theorem witness_nanD :
    nanD 0x7FF0000000000001#64 ∧ signalingD 0x7FF0000000000001#64 ∧ signalingD 0xFFF7FFFFFFFFFFFF#64 ∧ nanD 0x7FF8000000000000#64 ∧ ¬ signalingD 0x7FF8000000000000#64 ∧ nanD 0xFFFFFFFFFFFFFFFF#64 ∧ ¬ nanD 0x7FF0000000000000#64 ∧ ¬ nanD 0xFFF0000000000000#64 := by decide +kernel
/-- the ends of the order of the numbers, and the two zeros -/
theorem witness_MinMaxAndComparisons :
    ¬ nanS 0xFF800000#32 ∧ ¬ nanS 0x00000001#32 ∧ number 8 23 0xFF800000 < number 8 23 0x80000001 ∧ number 8 23 0x80000001 < number 8 23 0 ∧ number 8 23 0x7F7FFFFF < number 8 23 0x7F800000 ∧
    number 8 23 0x80000000 = 0 ∧ number 8 23 0 = 0 ∧ (0x80000000#32).msb = true ∧ (0#32).msb = false ∧ ¬ nanD 0xFFF0000000000000#64 ∧ number 11 52 0x8000000000000001 < number 11 52 0x8000000000000000 := by decide +kernel
/-- the ten clauses at the ends of their ranges -/
theorem witness_ClassMasks_single :
    [0xFF800000, 0xFF7FFFFF, 0x80800000, 0x807FFFFF, 0x80000001, 0x80000000, 0, 1, 0x7FFFFF, 0x800000, 0x7F7FFFFF, 0x7F800000, 0x7F800001, 0x7FC00000].map (fun n => ieeeNumerics.single.classify (BitVec.ofNat 32 n)) =
    [1#10, 2#10, 2#10, 4#10, 4#10, 8#10, 16#10, 32#10, 32#10, 64#10, 64#10, 128#10, 256#10, 512#10] := by decide +kernel
theorem witness_ClassMasks_double :
    [0xFFF0000000000000, 0xFFEFFFFFFFFFFFFF, 0x8010000000000000, 0x800FFFFFFFFFFFFF, 0x8000000000000001, 0x8000000000000000, 0, 1, 0xFFFFFFFFFFFFF, 0x10000000000000, 0x7FEFFFFFFFFFFFFF, 0x7FF0000000000000, 0x7FF0000000000001, 0x7FF8000000000000].map (fun n => ieeeNumerics.double.classify (BitVec.ofNat 64 n)) =
    [1#10, 2#10, 2#10, 4#10, 4#10, 8#10, 16#10, 32#10, 32#10, 64#10, 64#10, 128#10, 256#10, 512#10] := by decide +kernel
/-- absent, readable only, misaligned, and allowed -/
theorem witness_AtomicReadModifyWrites :
    (base.readX 0#5).toNat % 4 = 0 ∧ ¬ (base.readable 0#32 4 ∧ base.writable 0#32 4) ∧ ¬ (base.readable 0x00400000#32 4 ∧ base.writable 0x00400000#32 4) ∧ (0x10000002#32).toNat % 4 ≠ 0 ∧
    (reserved.readX 6#5).toNat % 4 = 0 ∧ reserved.readable (reserved.readX 6#5) 4 ∧ reserved.writable (reserved.readX 6#5) 4 := by decide +kernel
theorem witness_LoadReserved :
    (State.readX (State.xs base [(6#5, 0x10000FFD#32)]) 6#5).toNat % 4 ≠ 0 ∧ (State.readX (State.xs base [(6#5, 0x10001000#32)]) 6#5).toNat % 4 = 0 ∧ ¬ base.readable 0x10001000#32 4 ∧ (State.readX (State.xs base [(6#5, 0x10000FFC#32)]) 6#5).toNat % 4 = 0 ∧ base.readable 0x10000FFC#32 4 := by decide +kernel
/-- misaligned, not writable, the reservation held, the next granule's, none -/
theorem witness_StoreConditional :
    (0x10000FFF#32).toNat % 4 ≠ 0 ∧ ¬ base.writable 0x00400FFC#32 4 ∧ (reserved.readX 6#5).toNat % 4 = 0 ∧ reserved.writable (reserved.readX 6#5) 4 ∧ reserved.reservation = some (granuleOf reserved.params (reserved.readX 6#5)) ∧
    base.writable 0x10000004#32 4 ∧ reserved.reservation ≠ some (granuleOf reserved.params 0x10000004#32) ∧ (word0 5#32 9#32).reservation ≠ some (granuleOf base.params 0x10000000#32) := by decide +kernel
theorem witness_LrThenScSucceeds :
    ∃ t, (word0 5#32 9#32).params.extA = true ∧ exec (.lrW 5#5 6#5 0#1 0#1) (word0 5#32 9#32) = .next t ∧ t.trap = none ∧ t.readX 6#5 = (word0 5#32 9#32).readX 6#5 ∧ t.writable (t.readX 6#5) 4 := ⟨_, rfl, rfl, by decide +kernel, by decide +kernel, by decide +kernel⟩
/-- A state other than the one after reset has the invariant, and its step answers a next state. -/
theorem witness_StepKeepsTheInvariant : State.Inv { ready with reservation := some 0x10000000#32 } ∧
    ∃ t, step { ready with reservation := some 0x10000000#32 } = .next t :=
  ⟨{ zero := by unfold State.zeroKept; decide +kernel
     pc := by unfold State.pcAligned; decide +kernel
     fcsr := by unfold State.fcsrKept; decide +kernel
     mem := by decide +kernel
     stale := by decide +kernel
     reservation := by intro a h; cases h; decide +kernel
     slots := by intro h; revert h; decide +kernel }, _, rfl⟩
/-- The launches of the clauses; a byte of a program block that lies over one of the data. -/
theorem witness_LaunchRules : Launch.harts { defaultLaunch with harts := 2 } ≠ 1 ∧ Launch.harts { defaultLaunch with harts := 0 } ≠ 1 ∧
    Launch.xlen { defaultLaunch with xlen := 64 } ≠ 32 ∧
    Launch.devices { defaultLaunch with devices := [{ base := 0xF0000000#32, size := 16, r := true, w := true, x := false }] } ≠ [] ∧
    loaded.harts = 1 ∧ loaded.xlen = 32 ∧ loaded.devices = [] ∧ loaded.meetsRequirements = true ∧
    decodeWord 0x002081B3#32 = .ok (.add 3#5 1#5 2#5) := by decide +kernel

/-- A byte that two blocks reach is that of the later one; one that only the earlier block reaches is its own. -/
theorem witness_LaunchRules_placed :
    placedAt [(0x00400000#32, [1#8, 2#8]), (0x00400001#32, [3#8])] 0x00400001#32 3#8 ∧
    placedAt [(0x00400000#32, [1#8, 2#8]), (0x00400001#32, [3#8])] 0x00400000#32 1#8 :=
  ⟨⟨[(0x00400000#32, [1#8, 2#8])], (0x00400001#32, [3#8]), [], rfl, 0, by decide +kernel, by decide +kernel, by decide +kernel, by decide +kernel, by decide +kernel⟩,
    ⟨[], (0x00400000#32, [1#8, 2#8]), [(0x00400001#32, [3#8])], rfl, 0, by decide +kernel, by decide +kernel, by decide +kernel, by decide +kernel, by decide +kernel⟩⟩
/-- An ecall: the run goes on, and the step ends in a trap. -/
theorem witness_TrapsArePrecise : (base.withFetchWord 32 0x73).trap = none ∧
    ∃ t, step (base.withFetchWord 32 0x73) = .next t ∧ t.trap = some ⟨.environmentCall, 0#32⟩ := ⟨rfl, _, rfl, rfl⟩
theorem witness_TrapsEndTheRun :
    State.trap { base with trap := some ⟨.breakpoint, 0x00400100#32⟩ } = some ⟨.breakpoint, 0x00400100#32⟩ := rfl
theorem witness_NothingElseStops :
    base.trap = none := rfl
theorem witness_OnlyStoresChangeMemory_other :
    (Instr.lw 5#5 6#5 0#12).writesMemory = false ∧ (∃ t, exec (.lw 5#5 6#5 0#12) mem0 = .next t) := ⟨rfl, ⟨_, rfl⟩⟩
theorem witness_OnlyStoresChangeMemory_store :
    ∃ t, exec (.sb 6#5 7#5 1#12) mem0 = .next t ∧ t.byte 0x10000001#32 ≠ mem0.byte 0x10000001#32 := ⟨_, rfl, by decide +kernel⟩
theorem witness_StaleOnlyGrowsBetweenFences :
    (∀ rd rs1 imm, Instr.add 5#5 6#5 7#5 ≠ .fenceI rd rs1 imm) ∧ (Instr.add 5#5 6#5 7#5).writesMemory = false ∧ (∃ t, exec (.add 5#5 6#5 7#5) { base with stale := [1] } = .next t) := ⟨(by intro _ _ _ h; cases h), rfl, ⟨_, rfl⟩⟩
/-- A store to the word after pc, in a region with R, W and X. -/
theorem witness_StoredCodeNeedsAFence : ∃ s t : State, s.trap = none ∧ exec (.sw 6#5 7#5 4#12) s = .next t ∧ t.trap = none ∧
    t.fetchable t.pc 4 ∧ s.readX 6#5 + (4#12).signExtend 32 = s.pc + 4#32 :=
  ⟨State.with_ (State.xs base [(6#5, 0x00400100#32)]) (fun p => { p with memMap := rwx }), _, rfl, rfl, by decide +kernel,
    by decide +kernel, by decide +kernel⟩
theorem witness_StoredCodeNeedsAFence_fence :
    (∃ t, exec (.fenceI 0#5 0#5 0#12) { base with stale := [0x00400100] } = .next t) := ⟨_, rfl⟩
theorem witness_ReservationRules_kept :
    ∃ t, exec (.add 5#5 6#5 7#5) reserved = .next t ∧ t.reservation = some 0x10000000#32 := ⟨_, rfl, rfl⟩
theorem witness_ReservationRules_sc :
    (∃ t, exec (.scW 5#5 6#5 7#5 0#1 0#1) reserved = .next t) := ⟨_, rfl⟩
theorem witness_ReservationRules_trap :
    ∃ t, reserved.trap = none ∧ exec .ecall reserved = .next t ∧ t.trap ≠ none := ⟨_, rfl, rfl, by decide +kernel⟩
theorem witness_WhoWritesPc :
    ∃ t u, base.trap = none ∧ exec (.add 5#5 6#5 7#5) base = .next t ∧ t.trap = none ∧ (Instr.add 5#5 6#5 7#5).writesPc = false ∧ exec .ebreak base = .next u ∧ u.trap ≠ none := ⟨_, _, rfl, rfl, by decide +kernel, rfl, rfl, by decide +kernel⟩
/-- the F statements: boxed, not boxed, and with FLEN = 32 -/
theorem witness_unboxed :
    State.unboxed (State.fs base [(1#5, 0xFFFFFFFF3F800000#64)]) 1#5 = 0x3F800000#32 ∧ State.unboxed (State.fs base [(1#5, 0xFFFFFFFE3F800000#64)]) 1#5 = 0x7FC00000#32 ∧
    State.unboxed (State.with_ (State.fs base [(1#5, 0x000000003F800000#64)]) fun p => { p with extD := false }) 1#5 = 0x3F800000#32 := by decide +kernel
/-- finite operands at the ends of the range, and an exact zero -/
theorem witness_IntendedArithmeticRoundsOnce :
    base.params.fpNumerics = .intended ∧ isFinite 8 23 0xFF7FFFFF ∧ ¬ isFinite 8 23 0x7F800000 ∧ number 8 23 0x00000001 ≠ 0 ∧ 0 < number 8 23 0x00000001 ∧
    number 8 23 0x3F800000 + number 8 23 0xBF800000 = 0 ∧ isFinite 11 52 0xFFEFFFFFFFFFFFFF ∧ 0 < number 11 52 0x7FEFFFFFFFFFFFFF := by decide +kernel
theorem witness_IntendedArithmeticOnSpecials :
    isFinite 8 23 0x80000000 ∧ number 8 23 0x80000000 = 0 ∧ isFinite 8 23 0x80000001 ∧ number 8 23 0x80000001 < 0 ∧ number 8 23 0x80000001 ≠ 0 ∧
    isFinite 11 52 0x8000000000000000 ∧ number 11 52 0x8000000000000000 = 0 ∧ number 11 52 0xFFEFFFFFFFFFFFFF < 0 := by decide +kernel
/-- just inside and just outside of each range, and a tie -/
theorem witness_IntendedConversionsRoundOnce :
    isFinite 8 23 0x4F000000 ∧ 2 ^ 31 - 1 < integerOf .towardZero (number 8 23 0x4F000000) ∧ integerOf .towardZero (number 8 23 0xCF000000) = -2 ^ 31 ∧ integerOf .towardZero (number 8 23 0xCF000001) < -2 ^ 31 ∧
    integerOf .nearestEven (number 8 23 0x3F000000) = 0 ∧ integerOf .nearestAway (number 8 23 0x3F000000) = 1 ∧ integerOf .down (number 8 23 0xBF000000) < 0 ∧ (integerOf .nearestEven (number 8 23 0x3F000000) : ℚ) ≠ number 8 23 0x3F000000 ∧
    isFinite 11 52 0x41DFFFFFFFC00000 ∧ integerOf .nearestEven (number 11 52 0x41DFFFFFFFC00000) = 2 ^ 31 - 1 := by decide +kernel

end Sys2Proof.Tests
end

/-! The statements of 00_scope.md: a step is the fetch, then the decoded instruction's own meaning (R13). -/

namespace Sys2Proof.Machine

/-- Four bytes decode to an instruction, with none left over, when the word they make does (30_encoding.md R80). -/
theorem decode_four_eq_ok_iff (b0 b1 b2 b3 : Byte) (i : Instr) :
    decode [b0, b1, b2, b3] = .ok (i, []) ↔ decodeWord (wordOfBytes b0 b1 b2 b3) = .ok i := by
  cases read : decodeWord (wordOfBytes b0 b1 b2 b3) with
  | ok j => simp [decode, read]
  | error e => simp [decode, read]

/-- The decoder and the memory put four bytes together in the same order (20_memory.md R53). -/
theorem State.wordOfBytes_byte (s : State) (a : Word) :
    wordOfBytes (s.byte a) (s.byte (a + 1#32)) (s.byte (a + 2#32)) (s.byte (a + 3#32)) = s.read32 a := rfl

/-- Settles O6: past the two checks of the fetch, the bytes at `pc` are the word that `step` decodes. -/
theorem stepRunsDecoded : Obligations.StepRunsDecoded := by
  intro s i running fetchable fresh decoded
  have canFetch : s.canFetch s.pc 4 = true := (s.canFetch_eq s.pc 4).mpr fetchable
  have notStale : s.staleAt s.pc = false := Bool.eq_false_iff.mpr (mt s.staleAt_eq.mp fresh)
  have word : decodeWord (s.read32 s.pc) = .ok i := by
    rw [← s.wordOfBytes_byte]
    exact (decode_four_eq_ok_iff _ _ _ _ i).mp decoded
  obtain ⟨_, _, runs, _⟩ := step_fetches s running
  exact runs canFetch notStale i word

end Sys2Proof.Machine

/-! The statements of 10_state.md: what every step keeps, what reset leaves, and the three windows on `fcsr`. -/

namespace Sys2Proof.Machine

/-! ### The invariant (10_state.md R22, R27, R35, R41) -/

theorem State.Inv.accrue {s : State} (h : s.Inv) (fl : FpFlags) : (s.accrue fl).Inv := h.writeFcsr _ _

theorem State.Inv.linkAndJump {s : State} (h : s.Inv) (rd : RegIdx) {a : Word} (ha : a.toNat % 4 = 0) :
    (s.linkAndJump rd a).Inv := (h.writeX rd _).setPc ha

/-- An instruction keeps the invariant, whichever of its effects it has. -/
theorem State.Effect.keeps_inv {i : Instr} {s t : State} (e : s.Effect i t) (h : s.Inv) : t.Inv := by
  have released : State.Inv { s with reservation := none } := h.setReservation none (by simp)
  cases e with
  | trap e info => exact h.takeTrap e info
  | intReg rd v => exact (h.writeX rd v).advance
  | fpReg rd v _ _ hu => exact (h.writeD rd v hu).advance
  | fpRegFlags rd v fl _ _ hu => exact ((h.writeD rd v hu).accrue fl).advance
  | intRegFlags rd v fl => exact ((h.writeX rd v).accrue fl).advance
  | nothing => exact h.advance
  | branch a ha => exact h.setPc ha
  | jump rd a ha => exact h.linkAndJump rd ha
  | store a bs => exact (h.store a bs).advance
  | amo a bs rd v => exact ((h.store a bs).writeX rd v).advance
  | reserve rd rs1 aq rl v =>
    refine ((h.setReservation _ ?_).writeX rd v).advance
    rintro a ⟨rfl⟩
    exact granuleBase_aligned s.params _
  | condStored rd rs1 rs2 aq rl bs => exact ((released.store _ bs).writeX rd _).advance
  | condFailed rd => exact (released.writeX rd _).advance
  | fenceI => exact h.clearStale.advance
  | csrWritten rd c r b v old => exact (((h.afterRead r b).setCsr c v).writeX rd old).advance
  | csrRead rd r b old => exact ((h.afterRead r b).writeX rd old).advance

/-- Settles O46: a step's next state is a trap of the fetch or an effect of the decoded instruction. -/
theorem stepKeepsTheInvariant : Obligations.StepKeepsTheInvariant := by
  intro s t inv stepped
  obtain ⟨_, ⟨e, info, rfl⟩ | ⟨i, _, ran⟩⟩ := step_next stepped
  · exact inv.takeTrap e info
  · exact (exec_next_effect ran).keeps_inv inv

/-! ### The windows on `fcsr` (R35) -/

/-- With `EXT_F`, the record of `fflags`. -/
theorem State.csr_fflags {s : State} (h : s.params.extF = true) : s.csr csrFflags =
    some { value := s.fflags.setWidth 32, writable := true, wmask := 0x1F#32, volatile := false } := by
  simp [State.csr, h]

/-- With `EXT_F`, the record of `frm`. -/
theorem State.csr_frm {s : State} (h : s.params.extF = true) : s.csr csrFrm =
    some { value := s.frm.setWidth 32, writable := true, wmask := 0x7#32, volatile := false } := by
  simp [State.csr, h, csrFrm, csrFflags]

/-- With `EXT_F`, the record of `fcsr`. -/
theorem State.csr_fcsr {s : State} (h : s.params.extF = true) : s.csr csrFcsr =
    some { value := s.readFcsr, writable := true, wmask := 0xFF#32, volatile := false } := by
  simp [State.csr, h, csrFcsr, csrFrm, csrFflags]

theorem State.setCsr_fflags_window {s : State} (h : s.params.extF = true) (v : Word) :
    s.setCsr csrFflags v = s.writeFcsr s.frm (v.extractLsb' 0 5) := by
  simp [State.setCsr, h]

theorem State.setCsr_frm_window {s : State} (h : s.params.extF = true) (v : Word) :
    s.setCsr csrFrm v = s.writeFcsr (v.extractLsb' 0 3) s.fflags := by
  simp [State.setCsr, h, csrFrm, csrFflags]

theorem State.setCsr_fcsr_window {s : State} (h : s.params.extF = true) (v : Word) :
    s.setCsr csrFcsr v = s.writeFcsr (v.extractLsb' 5 3) (v.extractLsb' 0 5) := by
  simp [State.setCsr, h, csrFcsr, csrFrm, csrFflags]

theorem State.fflags_value (s : State) : s.fflags.setWidth 32 = BitVec.ofNat 32 (s.fcsr.toNat % 32) := by
  apply BitVec.eq_of_toNat_eq
  simp [State.fflags, BitVec.extractLsb'_toNat]

theorem State.frm_value (s : State) : s.frm.setWidth 32 = BitVec.ofNat 32 (s.fcsr.toNat / 32 % 8) := by
  apply BitVec.eq_of_toNat_eq
  simp [State.frm, BitVec.extractLsb'_toNat, Nat.shiftRight_eq_div_pow]

theorem State.readFcsr_value (s : State) : s.readFcsr = BitVec.ofNat 32 (s.fcsr.toNat % 256) := by
  apply BitVec.eq_of_toNat_eq
  have low : s.fcsr.toNat &&& 255 = s.fcsr.toNat % 256 := Nat.and_two_pow_sub_one_eq_mod _ 8
  rw [State.readFcsr, BitVec.toNat_and, BitVec.toNat_ofNat (s.fcsr.toNat % 256), Nat.mod_eq_of_lt (by omega)]
  exact low

/-- Bits 31 to 8 of `fcsr` are zero after every write, so it reads as it stands. -/
theorem State.fcsr_writeFcsr (s : State) (m : BitVec 3) (fl : FpFlags) :
    (s.writeFcsr m fl).fcsr = (s.writeFcsr m fl).readFcsr := by
  simp only [State.readFcsr, State.writeFcsr_fcsr]
  revert m fl; decide

/-- Under a mask of the low `n` bits, the written value has its low `n` bits (R38). -/
theorem maskedWrite_low {r : Csr} {n : Nat} (hn : n ≤ 32) (mask : ∀ i < 32, r.wmask.getLsbD i = decide (i < n)) (w : Word) :
    (maskedWrite r w).extractLsb' 0 n = w.extractLsb' 0 n := by
  apply BitVec.eq_of_getLsbD_eq
  intro i hi
  have inMask : r.wmask.getLsbD i = true := by simp [mask i (by omega), hi]
  simp [maskedWrite, inMask, hi]

/-- csrrw with `rd = x0` on a CSR that is writable and not volatile: the write under the mask, and nothing else
(43_rv32i_system.md R195). -/
theorem exec_csrrw_x0 {s : State} {c : CsrIdx} {r : Csr} (h : s.csr c = some r) (hw : r.writable = true)
    (hv : r.volatile = false) (rs1 : RegIdx) :
    exec (.csrrw 0#5 rs1 c) s = .next (s.setCsr c (maskedWrite r (s.readX rs1))).advance := by
  have run : exec (.csrrw 0#5 rs1 c) s = execCsrrw 0#5 rs1 c s := rfl
  simp [run, execCsrrw, State.csrAccess, h, hw, hv, State.afterRead, State.writeX]

@[simp] theorem State.fflags_advance (s : State) : s.advance.fflags = s.fflags := rfl
@[simp] theorem State.frm_advance (s : State) : s.advance.frm = s.frm := rfl

/-- Writing through `fflags` changes the flags alone. -/
theorem State.gives_csrrw_fflags {s : State} (hF : s.params.extF = true) (rs1 : RegIdx) :
    s.gives (.csrrw 0#5 rs1 csrFflags) fun t =>
      t.fflags.toNat = (s.readX rs1).toNat % 32 ∧ t.frm = s.frm ∧ t.csrs = s.csrs := by
  refine ⟨_, exec_csrrw_x0 (State.csr_fflags hF) rfl rfl rs1, ?_⟩
  rw [State.setCsr_fflags_window hF, maskedWrite_low (by decide) mask5_bit]
  simp

/-- Writing through `frm` changes the rounding mode alone. -/
theorem State.gives_csrrw_frm {s : State} (hF : s.params.extF = true) (rs1 : RegIdx) :
    s.gives (.csrrw 0#5 rs1 csrFrm) fun t =>
      t.frm.toNat = (s.readX rs1).toNat % 8 ∧ t.fflags = s.fflags ∧ t.csrs = s.csrs := by
  refine ⟨_, exec_csrrw_x0 (State.csr_frm hF) rfl rfl rs1, ?_⟩
  rw [State.setCsr_frm_window hF, maskedWrite_low (by decide) mask3_bit]
  simp

/-- Writing through `fcsr` sets its low eight bits, and bits 31 to 8 to zero. -/
theorem State.gives_csrrw_fcsr {s : State} (hF : s.params.extF = true) (rs1 : RegIdx) :
    s.gives (.csrrw 0#5 rs1 csrFcsr) fun t => t.fcsr.toNat = (s.readX rs1).toNat % 256 ∧ t.csrs = s.csrs := by
  refine ⟨_, exec_csrrw_x0 (State.csr_fcsr hF) rfl rfl rs1, ?_⟩
  rw [State.setCsr_fcsr_window hF]
  refine ⟨?_, rfl⟩
  rw [State.advance_fcsr, State.fcsr_writeFcsr, State.readFcsr_writeFcsr, maskedWrite_low (by decide) mask8_bit]
  simp only [BitVec.toNat_setWidth, BitVec.extractLsb'_toNat, Nat.shiftRight_zero]
  omega

/-- Settles O20: each window's record, then csrrw through each. -/
theorem fcsrWindows : Obligations.FcsrWindows := by
  intro s rs1 hF
  refine ⟨⟨?_, ?_, ?_⟩, State.gives_csrrw_fflags hF rs1, State.gives_csrrw_frm hF rs1, State.gives_csrrw_fcsr hF rs1⟩
  · rw [← s.fflags_value]; exact State.csr_fflags hF
  · rw [← s.frm_value]; exact State.csr_frm hF
  · rw [← s.readFcsr_value]; exact State.csr_fcsr hF

/-! ### The stale-code set (R42) -/

/-- A store takes no address out of the stale-code set. -/
theorem State.stale_subset_store (s : State) (a : Word) (bs : List Byte) : s.stale ⊆ (s.store a bs).stale :=
  fun c hc => (s.mem_stale_store bs a c).mpr (.inl hc)

/-- What an instruction does to the stale-code set: nothing, a store's growth, or fence.i's clearing. -/
theorem State.Effect.stale_cases {i : Instr} {s t : State} (e : s.Effect i t) :
    t.stale = s.stale ∨ (i.writesMemory = true ∧ s.stale ⊆ t.stale) ∨
      ((∃ rd rs1 imm, i = .fenceI rd rs1 imm) ∧ t.stale = []) := by
  cases e with
  | store a bs _ hm => exact .inr (.inl ⟨hm, by simpa using s.stale_subset_store a bs⟩)
  | amo a bs _ _ _ hm => exact .inr (.inl ⟨hm, by simpa using s.stale_subset_store a bs⟩)
  | condStored rd rs1 rs2 aq rl bs _ hi =>
    refine .inr (.inl ⟨by rw [hi]; rfl, ?_⟩)
    simpa using State.stale_subset_store { s with reservation := none } (s.readX rs1) bs
  | fenceI rd rs1 imm hi => exact .inr (.inr ⟨⟨rd, rs1, imm, hi⟩, rfl⟩)
  | _ => exact .inl (by simp)

/-- Settles O54, by what each effect does to the stale-code set. -/
theorem staleOnlyGrowsBetweenFences : Obligations.StaleOnlyGrowsBetweenFences := by
  intro i s t ran
  obtain same | ⟨writes, grows⟩ | ⟨⟨rd, rs1, imm, fence⟩, empty⟩ := (exec_next_effect ran).stale_cases
  · exact ⟨fun _ a ha => same ▸ ha, fun _ a ha => same ▸ ha⟩
  · exact ⟨fun _ a ha => grows ha, fun hm => by simp [writes] at hm⟩
  · exact ⟨fun hi => absurd fence (hi rd rs1 imm), fun _ a ha => by simp [empty] at ha⟩

/-! ### `pc` and the parameters (R26, 00_scope.md R7) -/

/-- An effect that is no trap leaves the parameters and the record of traps alone, and moves `pc` by 4 unless the
instruction is one that writes `pc`. -/
theorem State.Effect.pc_cases {i : Instr} {s t : State} (e : s.Effect i t) :
    (∃ e info, t = s.takeTrap e info) ∨
      (t.params = s.params ∧ t.trap = s.trap ∧ (i.writesPc = false → t.pc = s.pc + 4#32)) := by
  cases e with
  | trap e info => exact .inl ⟨e, info, rfl⟩
  | branch a _ _ hp => exact .inr ⟨rfl, rfl, fun noPc => by simp [hp] at noPc⟩
  | jump rd a _ _ hp => exact .inr ⟨by simp, by simp, fun noPc => by simp [hp] at noPc⟩
  | _ => exact .inr ⟨by simp, by simp, fun _ => by simp⟩

/-- Settles O57: a trap has a record and keeps `pc`; any other effect leaves the run without one. -/
theorem whoWritesPc : Obligations.WhoWritesPc := by
  intro i s t running ran
  obtain ⟨e, info, rfl⟩ | ⟨params, trap, pc⟩ := (exec_next_effect ran).pc_cases
  · exact ⟨by simp, fun _ => by simp, fun untrapped => by simp at untrapped⟩
  · exact ⟨params, fun trapped => absurd (trap.trans running) trapped, fun _ => pc⟩

/-! ### Reset (R44) -/

/-- Settles O47: every part of the invariant holds of the literal values of the reset state. -/
theorem resetHasTheInvariant : Obligations.ResetHasTheInvariant where
  zero := rfl
  pc := rfl
  fcsr := rfl
  mem := reset_mem_wf
  stale := ⟨List.Pairwise.nil, by simp [State.reset]⟩
  reservation := by intro a h; cases h
  slots := by
    intro _ r
    have zeroSlot : State.reset.readD r = 0#64 := by simp [State.readD, State.reset, defaultF, Vector.get]
    rw [zeroSlot]; rfl

/-- Settles O48: the values of the reset state (the stack pointer is a multiple of 16). -/
theorem resetValues : Obligations.ResetValues :=
  ⟨State.reset.readX_zero, rfl, rfl, rfl, rfl, rfl, rfl, rfl, rfl, rfl, rfl, rfl, by decide⟩

end Sys2Proof.Machine

/-! The statements of 20_memory.md: what memory reads after a write, its canonical form, the checks of the fetch, and which
instructions change memory. -/

namespace Sys2Proof.Machine

/-! ### Reading back a store (R52, R54) -/

/-- The `n` bytes from `a` up are those of `v`, the lowest first. -/
def State.holds (s : State) (a : Word) (n : Nat) {w : Nat} (v : BitVec w) : Prop :=
  ∀ k < n, s.byte (a + BitVec.ofNat 32 k) = v.extractLsb' (8 * k) 8

/-- A part of a part, counted from the start of the whole. -/
theorem extractLsb'_extractLsb'_add {w n m i j : Nat} (v : BitVec w) (h : j + m ≤ n) :
    (v.extractLsb' i n).extractLsb' j m = v.extractLsb' (i + j) m := by
  apply BitVec.eq_of_getLsbD_eq
  intro b hb
  have inside : j + b < n := by omega
  simp [hb, inside, Nat.add_assoc]

theorem bytes16_getElem? (v : Half) : ∀ k < 2, (bytes16 v)[k]? = some (v.extractLsb' (8 * k) 8)
  | 0, _ | 1, _ => rfl

theorem bytes32_getElem? (v : Word) : ∀ k < 4, (bytes32 v)[k]? = some (v.extractLsb' (8 * k) 8)
  | 0, _ | 1, _ | 2, _ | 3, _ => rfl

theorem bytes64_getElem? (v : DWord) (k : Nat) (hk : k < 8) : (bytes64 v)[k]? = some (v.extractLsb' (8 * k) 8) := by
  have len : (bytes32 (v.extractLsb' 0 32)).length = 4 := rfl
  by_cases low : k < 4
  · rw [bytes64, List.getElem?_append_left (by omega), bytes32_getElem? _ k low, extractLsb'_extractLsb'_add _ (by omega),
      Nat.zero_add]
  · rw [bytes64, List.getElem?_append_right (by omega), len, bytes32_getElem? _ (k - 4) (by omega),
      extractLsb'_extractLsb'_add _ (by omega), show 32 + 8 * (k - 4) = 8 * k by omega]

/-- A store makes its addresses hold its bytes. -/
theorem State.holds_store (s : State) (a : Word) (bs : List Byte) {n w : Nat} {v : BitVec w} (hl : bs.length = n)
    (hn : n ≤ 8) (hb : ∀ k < n, bs[k]? = some (v.extractLsb' (8 * k) 8)) : (s.store a bs).holds a n v := by
  intro k hk
  obtain ⟨_, written, _⟩ := s.stores_store a bs (by omega)
  exact Option.some.inj ((written k (by omega)).trans (hb k hk))

theorem State.holds_store16 (s : State) (a : Word) (v : Half) : (s.store a (bytes16 v)).holds a 2 v :=
  s.holds_store a _ rfl (by decide) (bytes16_getElem? v)

theorem State.holds_store32 (s : State) (a : Word) (v : Word) : (s.store a (bytes32 v)).holds a 4 v :=
  s.holds_store a _ rfl (by decide) (bytes32_getElem? v)

theorem State.holds_store64 (s : State) (a : Word) (v : DWord) : (s.store a (bytes64 v)).holds a 8 v :=
  s.holds_store a _ rfl (by decide) (bytes64_getElem? v)

/-- A store leaves every other byte alone. -/
theorem State.byte_store_other (s : State) (a : Word) (bs : List Byte) (hl : bs.length ≤ 8) {b : Word}
    (hb : ∀ k < bs.length, b ≠ a + BitVec.ofNat 32 k) : (s.store a bs).byte b = s.byte b := by
  obtain ⟨others, _⟩ := s.stores_store a bs hl
  exact others b hb

/-- The byte `d` past the `m`th, in the address and in the value. -/
theorem State.holds.byte_add {s : State} {a : Word} {n w : Nat} {v : BitVec w} (h : s.holds a n v)
    (m d : Nat) (hm : m + d < n) :
    s.byte (a + BitVec.ofNat 32 m + BitVec.ofNat 32 d) = v.extractLsb' (8 * m + 8 * d) 8 := by
  rw [BitVec.add_assoc, ← BitVec.ofNat_add, ← Nat.mul_add]
  exact h (m + d) hm

/-- The halfword read `m` bytes up is the part of the value 8m bits up. -/
theorem State.holds.read16 {s : State} {a : Word} {n w : Nat} {v : BitVec w} (h : s.holds a n v)
    (m : Nat) (hm : m + 2 ≤ n) :
    s.read16 (a + BitVec.ofNat 32 m) = v.extractLsb' (8 * m) 16 := by
  rw [State.read16, h.byte_add m 1 (by omega), h m (by omega)]
  exact BitVec.extractLsb'_append_extractLsb'_eq_extractLsb' rfl

/-- The word read `m` bytes up is the part of the value 8m bits up. -/
theorem State.holds.read32 {s : State} {a : Word} {n w : Nat} {v : BitVec w} (h : s.holds a n v)
    (m : Nat) (hm : m + 4 ≤ n) :
    s.read32 (a + BitVec.ofNat 32 m) = v.extractLsb' (8 * m) 32 := by
  rw [State.read32, h.byte_add m 3 (by omega), h.byte_add m 2 (by omega), h.byte_add m 1 (by omega), h m (by omega)]
  rw [BitVec.extractLsb'_append_extractLsb'_eq_extractLsb' (by omega),
    BitVec.extractLsb'_append_extractLsb'_eq_extractLsb' (by omega),
    BitVec.extractLsb'_append_extractLsb'_eq_extractLsb' (by omega)]

/-- The doubleword read is all the value. -/
theorem State.holds.read64 {s : State} {a : Word} {v : DWord} (h : s.holds a 8 v) : s.read64 a = v := by
  have high : s.read32 (a + 4#32) = v.extractLsb' 32 32 := h.read32 4 (by decide)
  have low : s.read32 a = v.extractLsb' 0 32 := by simpa using h.read32 0 (by decide)
  rw [State.read64, high, low, BitVec.extractLsb'_append_extractLsb'_eq_extractLsb' (by decide), BitVec.extractLsb'_eq_self]

/-- Settles O17: after a store its addresses hold its bytes, whatever the width of the read; no other address is reached. -/
theorem memoryReadsBackWrites : Obligations.MemoryReadsBackWrites := by
  intro s a
  refine ⟨fun v => ?_, fun v => ?_, fun v => ?_, fun v => ?_, fun b hb v => ?_, fun b hb v => ?_, fun b hb v => ?_,
    fun b hb v => ?_⟩
  · simp [State.store, State.byte_storeByte]
  · have held := s.holds_store16 a v
    exact ⟨by simpa using held.read16 0 (by decide), held⟩
  · have held := s.holds_store32 a v
    refine ⟨by simpa using held.read32 0 (by decide), held, fun j hj => ?_⟩
    rw [held.read16 (2 * j) (by omega), ← Nat.mul_assoc]
  · have held := s.holds_store64 a v
    refine ⟨held.read64, held, fun j hj => ?_⟩
    rw [held.read32 (4 * j) (by omega), ← Nat.mul_assoc]
  · simp [State.store, State.byte_storeByte, hb]
  · exact s.byte_store_other a (bytes16 v) (Nat.le_of_ble_eq_true rfl) hb
  · exact s.byte_store_other a (bytes32 v) (Nat.le_of_ble_eq_true rfl) hb
  · exact s.byte_store_other a (bytes64 v) (Nat.le_of_ble_eq_true rfl) hb

/-! ### The canonical form is one (R50) -/

/-- A canonical list: its first address is below the others, and the rest is canonical. -/
theorem Memory.wf_cons {k : Nat} {v : Byte} {rest : Memory} (h : Memory.wf ((k, v) :: rest)) :
    (∀ c ∈ rest, k < c.1) ∧ v ≠ unwrittenByte ∧ Memory.wf rest := by
  obtain ⟨rising, written⟩ := h
  obtain ⟨below, risingRest⟩ := List.pairwise_cons.mp rising
  obtain ⟨⟨_, first⟩, writtenRest⟩ := List.forall_mem_cons.mp written
  exact ⟨below, first, risingRest, writtenRest⟩

/-- The entry of the first address is what it reads as; every other address reads from the rest. -/
theorem Memory.read_cons (k : Nat) (v : Byte) (rest : Memory) (a : Nat) :
    Memory.read ((k, v) :: rest) a = if k = a then v else rest.read a := rfl

/-- Where two canonical lists read alike, the first address of the one is not below the first of the other: there the
other would read as unwritten. -/
theorem Memory.first_le_of_read_eq {k l : Nat} {v w : Byte} {m n : Memory} (hm : Memory.wf ((k, v) :: m))
    (hn : Memory.wf ((l, w) :: n)) (same : ∀ a, Memory.read ((k, v) :: m) a = Memory.read ((l, w) :: n) a) : l ≤ k := by
  by_contra notLe
  obtain ⟨below, _⟩ := Memory.wf_cons hn
  obtain ⟨_, written, _⟩ := Memory.wf_cons hm
  have unwritten : Memory.read ((l, w) :: n) k = unwrittenByte := by
    refine Memory.read_below _ k (List.forall_mem_cons.mpr ⟨by omega, fun c hc => ?_⟩)
    have := below c hc
    omega
  apply written
  rw [← unwritten, ← same, Memory.read_cons, if_pos rfl]

/-- A canonical list that reads as unwritten everywhere is empty. -/
theorem Memory.eq_nil_of_read {m : Memory} (h : Memory.wf m) (unwritten : ∀ a, m.read a = unwrittenByte) : m = [] := by
  cases m with
  | nil => rfl
  | cons c rest =>
    obtain ⟨k, v⟩ := c
    obtain ⟨_, written, _⟩ := Memory.wf_cons h
    refine absurd ?_ written
    rw [← unwritten k, Memory.read_cons, if_pos rfl]

/-- Settles O18, by induction on the first list: the first entries are the same, and so the rests read alike. -/
theorem equalMemoriesAreEqualData : Obligations.EqualMemoriesAreEqualData := by
  intro m
  induction m with
  | nil => exact fun n _ hn same => (Memory.eq_nil_of_read hn fun a => (same a).symm).symm
  | cons c m ih =>
    intro n hm hn same
    cases n with
    | nil => exact Memory.eq_nil_of_read hm same
    | cons d n =>
      obtain ⟨k, v⟩ := c
      obtain ⟨l, w⟩ := d
      obtain rfl : k = l :=
        Nat.le_antisymm (Memory.first_le_of_read_eq hn hm fun a => (same a).symm) (Memory.first_le_of_read_eq hm hn same)
      obtain rfl : v = w := by simpa [Memory.read_cons] using same k
      obtain ⟨belowM, _, wfM⟩ := Memory.wf_cons hm
      obtain ⟨belowN, _, wfN⟩ := Memory.wf_cons hn
      rw [ih n wfM wfN fun a => ?_]
      by_cases first : k = a
      · subst first
        rw [Memory.read_below m k belowM, Memory.read_below n k belowN]
      · simpa [Memory.read_cons, first] using same a

/-! ### The checks of the fetch (R59, 60_exceptions.md R403) -/

/-- Settles O7: each check is the model's own, in the terms of the claims. -/
theorem fetchChecksInOrder : Obligations.FetchChecksInOrder := by
  intro s running
  obtain ⟨noX, stale, _, noRow⟩ := step_fetches s running
  have canFetch : s.fetchable s.pc 4 → s.canFetch s.pc 4 = true := (s.canFetch_eq s.pc 4).mpr
  refine ⟨fun absent => ?_, fun present isStale => ?_, fun present fresh unlisted => ?_⟩
  · have cannotFetch : s.canFetch s.pc 4 = false := Bool.eq_false_iff.mpr (mt (s.canFetch_eq s.pc 4).mp absent)
    exact ⟨_, noX cannotFetch, s.trapped_takeTrap _ _⟩
  · exact stale (canFetch present) (s.staleAt_eq.mpr isStale)
  · have notStale : s.staleAt s.pc = false := Bool.eq_false_iff.mpr (mt s.staleAt_eq.mp fresh)
    rw [← s.read32_eq] at unlisted ⊢
    cases read : decodeWord (s.read32 s.pc) with
    | ok i => exact absurd read (unlisted i)
    | error e => exact ⟨_, noRow (canFetch present) notStale e read, s.trapped_takeTrap _ _⟩

/-! ### What changes memory (R57, R61, R62) -/

@[simp] theorem State.byte_setReservation (s : State) (r : Option Word) (b : Word) :
    State.byte { s with reservation := r } b = s.byte b := rfl

/-- A byte that a store changes is stale. -/
theorem State.stale_of_byte_store_ne (s : State) (a : Word) (bs : List Byte) (hl : bs.length ≤ 8) {b : Word}
    (changed : (s.store a bs).byte b ≠ s.byte b) : b.toNat ∈ (s.store a bs).stale := by
  by_contra fresh
  refine changed (s.byte_store_other a bs hl fun k hk at_k => fresh ?_)
  exact (s.mem_stale_store bs a b.toNat).mpr (.inr ⟨k, hk, by rw [at_k]⟩)

/-- What an instruction does to memory: nothing, or a store, whose bytes are stale. -/
theorem State.Effect.mem_cases {i : Instr} {s t : State} (e : s.Effect i t) :
    s.keepsMem t ∨ (i.writesMemory = true ∧ ∀ b, t.byte b ≠ s.byte b → b.toNat ∈ t.stale) := by
  cases e with
  | store a bs hl hm =>
    exact .inr ⟨hm, fun b changed => by simpa using s.stale_of_byte_store_ne a bs hl (by simpa using changed)⟩
  | amo a bs _ _ hl hm =>
    exact .inr ⟨hm, fun b changed => by simpa using s.stale_of_byte_store_ne a bs hl (by simpa using changed)⟩
  | condStored rd rs1 rs2 aq rl bs hl hi =>
    refine .inr ⟨by rw [hi]; rfl, fun b changed => ?_⟩
    simpa using State.stale_of_byte_store_ne { s with reservation := none } (s.readX rs1) bs hl (by simpa using changed)
  | _ => exact .inl fun b => State.byte_congr (by simp) b

/-- Settles O53, by what each effect does to memory. -/
theorem onlyStoresChangeMemory : Obligations.OnlyStoresChangeMemory := by
  refine ⟨fun i s t writesNone ran => ?_, fun i s t a ran changed => ?_⟩
  · obtain kept | ⟨writes, _⟩ := (exec_next_effect ran).mem_cases
    · exact kept
    · simp [writesNone] at writes
  · obtain kept | ⟨_, stale⟩ := (exec_next_effect ran).mem_cases
    · exact absurd (kept a) changed
    · exact stale a changed

/-! ### Stored code (R62, 70_reset_and_hazards.md R450) -/

/-- An access that answers an untrapped next state passed its checks. -/
theorem State.whenPasses_untrapped {s t : State} {c : Option Cause} {a : Word} {k : Result}
    (h : s.whenPasses c a k = .next t) (untrapped : t.trap = none) : k = .next t := by
  cases c with
  | none => exact h
  | some e =>
    cases h
    simp at untrapped

/-- An untrapped sw is its store and `pc + 4` (42_rv32i_loadstore.md R179). -/
theorem exec_sw_untrapped {s t : State} {rs1 rs2 : RegIdx} {imm : BitVec 12} (ran : exec (.sw rs1 rs2 imm) s = .next t)
    (untrapped : t.trap = none) : t = (s.store (s.readX rs1 + imm.signExtend 32) (bytes32 (s.readX rs2))).advance := by
  have stored := State.whenPasses_untrapped (show s.storeAt rs1 imm (bytes32 (s.readX rs2)) = .next t from ran) untrapped
  cases stored
  rfl

/-- Settles O55: the first byte of the next fetch is one that sw stored; fence.i leaves nothing stale. -/
theorem storedCodeNeedsAFence : Obligations.StoredCodeNeedsAFence := by
  refine ⟨fun s t rs1 rs2 imm _ ran untrapped fetchable stored => ?_, fun s t rd rs1 imm ran => ?_⟩
  · obtain ⟨_, staleFetch, _⟩ := fetchChecksInOrder t untrapped
    refine staleFetch fetchable ⟨0, by decide, ?_⟩
    rw [exec_sw_untrapped ran untrapped, stored]
    exact (State.mem_stale_store _ _ _ _).mpr (.inr ⟨0, Nat.zero_lt_succ _, by simp⟩)
  · have run : exec (.fenceI rd rs1 imm) s = .next { s with stale := [] }.advance := rfl
    cases run.symm.trans ran
    simp

end Sys2Proof.Machine

/-! The statements of 30_encoding.md: the decoder and the encoder undo each other, the decoder reads exactly the rows of
the opcode table, and the rows that are not admitted take IllegalInstruction. -/

namespace Sys2Proof.Machine

open Sys2Proof.Laws

/-! ### Decoding a word of each format (R81, R84 to R88, R91, R92)

Each lemma asks what the row makes of any fields, and gives what it makes of a word packed from the operands. -/

theorem decodeWord_packI {imm : BitVec 12} {rs1 : RegIdx} {f3 : BitVec 3} {rd : RegIdx} {op : BitVec 7}
    {mk : BitVec 12 → Instr} (row : ∀ f7 rs2, decodeFields f7 rs2 rs1 f3 rd op = some (mk (immI f7 rs2))) :
    decodeWord (packI imm rs1 f3 rd op) = .ok (mk imm) :=
  decodeWord_pack ((row _ _).trans (by rw [immI_split]))

theorem decodeWord_packS {imm : BitVec 12} {rs2 rs1 : RegIdx} {f3 : BitVec 3} {op : BitVec 7}
    {mk : BitVec 12 → Instr} (row : ∀ f7 rd, decodeFields f7 rs2 rs1 f3 rd op = some (mk (immS f7 rd))) :
    decodeWord (packS imm rs2 rs1 f3 op) = .ok (mk imm) :=
  decodeWord_pack ((row _ _).trans (by rw [immS_split]))

theorem decodeWord_packB {off : BitVec 13} {rs2 rs1 : RegIdx} {f3 : BitVec 3} {op : BitVec 7}
    {mk : BitVec 13 → Instr} (even : (!off.getLsbD 0) = true)
    (row : ∀ f7 rd, decodeFields f7 rs2 rs1 f3 rd op = some (mk (offB f7 rd))) :
    decodeWord (packB off rs2 rs1 f3 op) = .ok (mk off) :=
  decodeWord_pack ((row _ _).trans (by rw [offB_split off (Bool.not_eq_true' _ ▸ even)]))

theorem decodeWord_packU {imm : BitVec 20} {rd : RegIdx} {op : BitVec 7} {mk : BitVec 20 → Instr}
    (row : ∀ f7 rs2 rs1 f3, decodeFields f7 rs2 rs1 f3 rd op = some (mk (immU f7 rs2 rs1 f3))) :
    decodeWord (packU imm rd op) = .ok (mk imm) :=
  decodeWord_pack ((row _ _ _ _).trans (by rw [immU_split]))

theorem decodeWord_packJ {off : BitVec 21} {rd : RegIdx} {op : BitVec 7} {mk : BitVec 21 → Instr}
    (even : (!off.getLsbD 0) = true)
    (row : ∀ f7 rs2 rs1 f3, decodeFields f7 rs2 rs1 f3 rd op = some (mk (offJ f7 rs2 rs1 f3))) :
    decodeWord (packJ off rd op) = .ok (mk off) :=
  decodeWord_pack ((row _ _ _ _).trans (by rw [offJ_split off (Bool.not_eq_true' _ ▸ even)]))

/-- The R4 form, whose fmt selects the row (R91). -/
theorem decodeWord_packHi5_fmt {rs3 : BitVec 5} {f : BitVec 2} {rs2 rs1 : RegIdx} {f3 : BitVec 3} {rd : RegIdx}
    {op : BitVec 7} {mk : BitVec 5 → BitVec 3 → Instr}
    (row : ∀ f7, fmt f7 = f → decodeFields f7 rs2 rs1 f3 rd op = some (mk (hi5 f7) f3)) :
    decodeWord (packHi5 rs3 f rs2 rs1 f3 rd op) = .ok (mk rs3 f3) := by
  obtain ⟨hi, lo⟩ := hi5_fmt_append rs3 f
  exact decodeWord_pack ((row _ lo).trans (by rw [hi]))

/-- The A group, whose funct5 selects the row (R92). -/
theorem decodeWord_packHi5_aq_rl {f5 : BitVec 5} {aq rl : BitVec 1} {rs2 rs1 : RegIdx} {f3 : BitVec 3} {rd : RegIdx}
    {op : BitVec 7} {mk : BitVec 1 → BitVec 1 → Instr}
    (row : ∀ f7, hi5 f7 = f5 → decodeFields f7 rs2 rs1 f3 rd op = some (mk (aqBit f7) (rlBit f7))) :
    decodeWord (packHi5 f5 (aq ++ rl) rs2 rs1 f3 rd op) = .ok (mk aq rl) := by
  obtain ⟨hi, a, r⟩ := hi5_aq_rl_append f5 aq rl
  exact decodeWord_pack ((row _ hi).trans (by rw [a, r]))

/-- Settles O1: the instructions by the format of their word; in the last case the fields are the operands. -/
theorem decodeOfEncode : Obligations.DecodeOfEncode := by
  intro i wf
  cases i with
  | addi | andi | ori | slti | sltiu | xori | jalr | lb | lbu | lh | lhu | lw | csrrc | csrrci | csrrs | csrrsi | csrrw
  | csrrwi | fence | fenceI | flw | fld => exact decodeWord_packI fun _ _ => rfl
  | sb | sh | sw | fsw | fsd => exact decodeWord_packS fun _ _ => rfl
  | beq | bge | bgeu | blt | bltu | bne => exact decodeWord_packB wf fun _ _ => rfl
  | lui | auipc => exact decodeWord_packU fun _ _ _ _ => rfl
  | jal => exact decodeWord_packJ wf fun _ _ _ _ => rfl
  | fmaddS | fmaddD | fmsubS | fmsubD | fnmsubS | fnmsubD | fnmaddS | fnmaddD =>
    exact decodeWord_packHi5_fmt fun f7 precision => by
      simp [decodeFields, decodeFmadd, decodeFmsub, decodeFnmsub, decodeFnmadd, precision]
  | amoaddW | amoaddD | amoandW | amoandD | amomaxW | amomaxD | amomaxuW | amomaxuD | amominW | amominD | amominuW
  | amominuD | amoorW | amoorD | amoswapW | amoswapD | amoxorW | amoxorD | lrW | lrD | scW | scD =>
    exact decodeWord_packHi5_aq_rl fun f7 funct5 => by simp [decodeFields, decodeAmo, funct5]
  | _ => exact decodeWord_pack rfl

/-! ### Packing the operands of each format (R84 to R88, R91, R92) -/

section
variable (f7 : BitVec 7) (rs2 rs1 : RegIdx) (f3 : BitVec 3) (rd : RegIdx) (op : BitVec 7)

theorem packI_immI : packI (immI f7 rs2) rs1 f3 rd op = pack f7 rs2 rs1 f3 rd op := by
  obtain ⟨hi, lo⟩ := split_immI f7 rs2
  rw [packI, hi, lo]

theorem packS_immS : packS (immS f7 rd) rs2 rs1 f3 op = pack f7 rs2 rs1 f3 rd op := by
  obtain ⟨hi, lo⟩ := split_immS f7 rd
  rw [packS, hi, lo]

theorem packB_offB : packB (offB f7 rd) rs2 rs1 f3 op = pack f7 rs2 rs1 f3 rd op := by
  obtain ⟨hi, lo, _⟩ := split_offB f7 rd
  rw [packB, hi, lo]

theorem packU_immU : packU (immU f7 rs2 rs1 f3) rd op = pack f7 rs2 rs1 f3 rd op := by
  obtain ⟨e7, e2, e1, e3⟩ := split_immU f7 rs2 rs1 f3
  rw [packU, e7, e2, e1, e3]

theorem packJ_offJ : packJ (offJ f7 rs2 rs1 f3) rd op = pack f7 rs2 rs1 f3 rd op := by
  obtain ⟨e7, e2, e1, e3, _⟩ := split_offJ f7 rs2 rs1 f3
  rw [packJ, e7, e2, e1, e3]

theorem packHi5_fmt {f : BitVec 2} (precision : fmt f7 = f) :
    packHi5 (hi5 f7) f rs2 rs1 f3 rd op = pack f7 rs2 rs1 f3 rd op := by
  obtain ⟨whole, _⟩ := append_hi5 f7
  rw [packHi5, ← precision, whole]

theorem packHi5_aq_rl {f5 : BitVec 5} (funct5 : hi5 f7 = f5) :
    packHi5 f5 (aqBit f7 ++ rlBit f7) rs2 rs1 f3 rd op = pack f7 rs2 rs1 f3 rd op := by
  obtain ⟨_, whole⟩ := append_hi5 f7
  rw [packHi5, ← funct5, whole]

/-- A branch offset read from a word is even (R86). -/
theorem offB_even : (!(offB f7 rd).getLsbD 0) = true := by
  obtain ⟨_, _, even⟩ := split_offB f7 rd
  rw [even]; rfl

/-- A jal offset read from a word is even (R88). -/
theorem offJ_even : (!(offJ f7 rs2 rs1 f3).getLsbD 0) = true := by
  obtain ⟨_, _, _, _, even⟩ := split_offJ f7 rs2 rs1 f3
  rw [even]; rfl

end

/-! ### What each decoder reads has the word it was read from (R105) -/

/-- `i` is well formed, and `w` is its word. -/
def HasWord (i : Instr) (w : Word) : Prop := encode i = w ∧ i.WellFormed

section
variable {f7 : BitVec 7} {rs2 rs1 : RegIdx} {f3 : BitVec 3} {rd : RegIdx} {op : BitVec 7} {i : Instr}

theorem hasWord_of_decodeOpImm (h : decodeOpImm f7 rs2 rs1 f3 rd = some i) :
    HasWord i (pack f7 rs2 rs1 f3 rd 0x13#7) := by
  unfold decodeOpImm at h
  split at h
  case h_7 | h_8 => split_ifs at h <;> cases h <;> subst f7 <;> exact ⟨rfl, rfl⟩
  all_goals cases h; exact ⟨packI_immI .., rfl⟩

theorem hasWord_of_decodeOp (h : decodeOp f7 rs2 rs1 f3 rd = some i) : HasWord i (pack f7 rs2 rs1 f3 rd 0x33#7) := by
  unfold decodeOp at h
  split at h <;> cases h <;> exact ⟨rfl, rfl⟩

/-- ecall and ebreak fix every field (R96). -/
theorem hasWord_of_decodeSystem (h : decodeSystem f7 rs2 rs1 f3 rd = some i) :
    HasWord i (pack f7 rs2 rs1 f3 rd 0x73#7) := by
  unfold decodeSystem at h
  split at h
  case h_1 =>
    split_ifs at h with fixed <;> cases h <;> obtain ⟨rfl, rfl, rfl⟩ := fixed <;> subst rs2 <;> exact ⟨rfl, rfl⟩
  all_goals cases h <;> exact ⟨packI_immI .., rfl⟩

theorem hasWord_of_decodeAmo (h : decodeAmo f7 rs2 rs1 f3 rd = some i) : HasWord i (pack f7 rs2 rs1 f3 rd 0x2F#7) := by
  unfold decodeAmo at h
  split at h <;> cases h <;> exact ⟨packHi5_aq_rl _ _ _ _ _ _ ‹hi5 f7 = _›, rfl⟩

theorem hasWord_of_decodeOpFp (h : decodeOpFp f7 rs2 rs1 f3 rd = some i) :
    HasWord i (pack f7 rs2 rs1 f3 rd 0x53#7) := by
  unfold decodeOpFp at h
  split at h <;> cases h <;> exact ⟨rfl, rfl⟩

/-- By opcode: the short decoders are split here, by the format of what they read. -/
theorem hasWord_of_decodeFields (h : decodeFields f7 rs2 rs1 f3 rd op = some i) :
    HasWord i (pack f7 rs2 rs1 f3 rd op) := by
  unfold decodeFields at h
  split at h
  case h_1 | h_2 | h_9 => -- decodeLoad, decodeFence, decodeFpLoad
    simp only [decodeLoad, decodeFence, decodeFpLoad] at h
    split at h <;> cases h <;> exact ⟨packI_immI .., rfl⟩
  case h_3 => exact hasWord_of_decodeOpImm h
  case h_4 | h_10 => -- decodeStore, decodeFpStore
    simp only [decodeStore, decodeFpStore] at h
    split at h <;> cases h <;> exact ⟨packS_immS .., rfl⟩
  case h_5 => exact hasWord_of_decodeOp h
  case h_6 =>
    unfold decodeBranch at h
    split at h <;> cases h <;> exact ⟨packB_offB .., offB_even ..⟩
  case h_7 => exact hasWord_of_decodeSystem h
  case h_8 => exact hasWord_of_decodeAmo h
  case h_11 | h_12 | h_13 | h_14 => -- the four fused multiply-adds
    simp only [decodeFmadd, decodeFmsub, decodeFnmsub, decodeFnmadd] at h
    split at h <;> cases h <;> exact ⟨packHi5_fmt _ _ _ _ _ _ ‹fmt f7 = _›, rfl⟩
  case h_15 => exact hasWord_of_decodeOpFp h
  case h_16 | h_17 => cases h; exact ⟨packU_immU .., rfl⟩ -- auipc, lui
  case h_18 => -- jalr
    split_ifs at h with noFunct3
    cases h
    subst noFunct3
    exact ⟨packI_immI .., rfl⟩
  case h_19 => cases h; exact ⟨packJ_offJ .., offJ_even ..⟩ -- jal
  case h_20 => cases h

end

/-- The decoder reads an instruction exactly when its fields select a row. -/
theorem decodeWord_eq_ok_iff (w : Word) (i : Instr) : decodeWord w = .ok i ↔
    decodeFields (funct7 w) (fieldRs2 w) (fieldRs1 w) (funct3 w) (fieldRd w) (opcode w) = some i := by
  unfold decodeWord
  cases decodeFields (funct7 w) (fieldRs2 w) (fieldRs1 w) (funct3 w) (fieldRd w) (opcode w) <;> simp

/-- Settles O2: the fields of a word have the word that was read, and they make up the word. -/
theorem encodeOfDecode : Obligations.EncodeOfDecode := by
  intro w i read
  obtain ⟨word, wf⟩ := hasWord_of_decodeFields ((decodeWord_eq_ok_iff w i).mp read)
  exact ⟨word.trans (pack_fields w), wf⟩

/-! ### The rows of the table (R93, R100 to R102) -/

/-- Every instruction's word is in its row: the family `EncodeRow`, constructor by constructor. -/
theorem encode_in_row (i : Instr) : EncodeRow.Statement i :=
  Instr.casesOn (motive := EncodeRow.Statement) i
    EncodeRow.add EncodeRow.addi EncodeRow.and EncodeRow.andi EncodeRow.auipc EncodeRow.lui EncodeRow.or EncodeRow.ori
    EncodeRow.sll EncodeRow.slli EncodeRow.slt EncodeRow.slti EncodeRow.sltiu EncodeRow.sltu EncodeRow.sra
    EncodeRow.srai EncodeRow.srl EncodeRow.srli EncodeRow.sub EncodeRow.xor EncodeRow.xori EncodeRow.beq EncodeRow.bge
    EncodeRow.bgeu EncodeRow.blt EncodeRow.bltu EncodeRow.bne EncodeRow.jal EncodeRow.jalr EncodeRow.lb EncodeRow.lbu
    EncodeRow.lh EncodeRow.lhu EncodeRow.lw EncodeRow.sb EncodeRow.sh EncodeRow.sw EncodeRow.csrrc EncodeRow.csrrci
    EncodeRow.csrrs EncodeRow.csrrsi EncodeRow.csrrw EncodeRow.csrrwi EncodeRow.ebreak EncodeRow.ecall EncodeRow.fence
    EncodeRow.fenceI EncodeRow.mul EncodeRow.mulh EncodeRow.mulhsu EncodeRow.mulhu EncodeRow.div EncodeRow.divu
    EncodeRow.rem EncodeRow.remu EncodeRow.flw EncodeRow.fld EncodeRow.fsw EncodeRow.fsd EncodeRow.faddS
    EncodeRow.faddD EncodeRow.fsubS EncodeRow.fsubD EncodeRow.fmulS EncodeRow.fmulD EncodeRow.fdivS EncodeRow.fdivD
    EncodeRow.fsqrtS EncodeRow.fsqrtD EncodeRow.fmaddS EncodeRow.fmaddD EncodeRow.fmsubS EncodeRow.fmsubD
    EncodeRow.fnmsubS EncodeRow.fnmsubD EncodeRow.fnmaddS EncodeRow.fnmaddD EncodeRow.fsgnjS EncodeRow.fsgnjD
    EncodeRow.fsgnjnS EncodeRow.fsgnjnD EncodeRow.fsgnjxS EncodeRow.fsgnjxD EncodeRow.fminS EncodeRow.fminD
    EncodeRow.fmaxS EncodeRow.fmaxD EncodeRow.feqS EncodeRow.feqD EncodeRow.fltS EncodeRow.fltD EncodeRow.fleS
    EncodeRow.fleD EncodeRow.fclassS EncodeRow.fclassD EncodeRow.fmvSX EncodeRow.fmvDX EncodeRow.fmvXS EncodeRow.fmvXD
    EncodeRow.fcvtDS EncodeRow.fcvtSD EncodeRow.fcvtSW EncodeRow.fcvtDW EncodeRow.fcvtSL EncodeRow.fcvtDL
    EncodeRow.fcvtSWu EncodeRow.fcvtDWu EncodeRow.fcvtSLu EncodeRow.fcvtDLu EncodeRow.fcvtWS EncodeRow.fcvtWD
    EncodeRow.fcvtLS EncodeRow.fcvtLD EncodeRow.fcvtWuS EncodeRow.fcvtWuD EncodeRow.fcvtLuS EncodeRow.fcvtLuD
    EncodeRow.amoaddW EncodeRow.amoaddD EncodeRow.amoandW EncodeRow.amoandD EncodeRow.amomaxW EncodeRow.amomaxD
    EncodeRow.amomaxuW EncodeRow.amomaxuD EncodeRow.amominW EncodeRow.amominD EncodeRow.amominuW EncodeRow.amominuD
    EncodeRow.amoorW EncodeRow.amoorD EncodeRow.amoswapW EncodeRow.amoswapD EncodeRow.amoxorW EncodeRow.amoxorD
    EncodeRow.lrW EncodeRow.lrD EncodeRow.scW EncodeRow.scD

/-- The decoder reads `w` as an instruction of the row. -/
def DecodesIn (w : Word) (row : Word × Word) : Prop := ∃ i, decodeWord w = .ok i ∧ tableRow i = row

/-- A mask and a match value act on each field (R82). -/
theorem fields_of_and {w m v : Word} (h : w &&& m = v) :
    funct7 w &&& funct7 m = funct7 v ∧ fieldRs2 w &&& fieldRs2 m = fieldRs2 v ∧
      funct3 w &&& funct3 m = funct3 v ∧ opcode w &&& opcode m = opcode v := by
  subst h
  simp [funct7, fieldRs2, funct3, opcode, BitVec.extractLsb'_and]

/-- A word that matches a row decodes in it when all fields that match the row do; every mask keeps the opcode whole. -/
theorem decodesIn_of_and {w m v : Word} {row : Word × Word} (isRow : row = (m, v)) (wholeOpcode : opcode m = 0x7F#7)
    (h : w &&& row.1 = row.2)
    (select : ∀ f7 rs2 rs1 f3 rd, f7 &&& funct7 m = funct7 v → rs2 &&& fieldRs2 m = fieldRs2 v →
      f3 &&& funct3 m = funct3 v → ∃ i, decodeFields f7 rs2 rs1 f3 rd (opcode v) = some i ∧ tableRow i = (m, v)) :
    DecodesIn w row := by
  subst isRow
  obtain ⟨e7, e2, e3, eo⟩ := fields_of_and h
  rw [wholeOpcode, ones7] at eo
  obtain ⟨i, read, inRow⟩ := select _ _ (fieldRs1 w) _ (fieldRd w) e7 e2 e3
  exact ⟨i, (decodeWord_eq_ok_iff w i).mpr (eo ▸ read), inRow⟩

/-- The mask of the A group leaves aq and rl free (R92). -/
theorem aq_rl_cases {f7 c : BitVec 7} (h : f7 &&& 0x7C#7 = c) :
    f7 = c ∨ f7 = c ||| 1#7 ∨ f7 = c ||| 2#7 ∨ f7 = c ||| 3#7 := by
  subst h; revert f7; decide

/-- The mask of the R4 form keeps fmt (R91). -/
theorem fmt_and (f7 : BitVec 7) : fmt (f7 &&& 0x03#7) = fmt f7 := by revert f7; decide

/-- The rows by their mask; the last case is the mask 0xFE00707F of the R format. -/
theorem decodesIn_of_match {w : Word} {j : Instr} (h : w &&& (tableRow j).1 = (tableRow j).2) :
    DecodesIn w (tableRow j) := by
  cases j with
  | auipc | lui | jal => exact decodesIn_of_and rfl rfl h fun _ _ _ _ _ _ _ _ => ⟨_, rfl, rfl⟩
  | addi | andi | ori | slti | sltiu | xori | jalr | lb | lbu | lh | lhu | lw | csrrc | csrrci | csrrs | csrrsi | csrrw
  | csrrwi | fence | fenceI | flw | fld | sb | sh | sw | fsw | fsd | beq | bge | bgeu | blt | bltu | bne =>
    refine decodesIn_of_and rfl rfl h fun f7 rs2 rs1 f3 rd _ _ e3 => ?_
    obtain rfl := (ones3 f3).symm.trans e3
    exact ⟨_, rfl, rfl⟩
  | ebreak | ecall =>
    obtain rfl := BitVec.and_allOnes.symm.trans h
    exact ⟨_, rfl, rfl⟩
  | faddS | faddD | fsubS | fsubD | fmulS | fmulD | fdivS | fdivD =>
    refine decodesIn_of_and rfl rfl h fun f7 rs2 rs1 f3 rd e7 _ _ => ?_
    obtain rfl := (ones7 f7).symm.trans e7
    exact ⟨_, rfl, rfl⟩
  | fsqrtS | fsqrtD | fcvtDS | fcvtSD | fcvtSW | fcvtDW | fcvtSL | fcvtDL | fcvtSWu | fcvtDWu | fcvtSLu | fcvtDLu
  | fcvtWS | fcvtWD | fcvtLS | fcvtLD | fcvtWuS | fcvtWuD | fcvtLuS | fcvtLuD =>
    refine decodesIn_of_and rfl rfl h fun f7 rs2 rs1 f3 rd e7 e2 _ => ?_
    obtain rfl := (ones7 f7).symm.trans e7
    obtain rfl := (ones5 rs2).symm.trans e2
    exact ⟨_, rfl, rfl⟩
  | fclassS | fclassD | fmvSX | fmvDX | fmvXS | fmvXD =>
    refine decodesIn_of_and rfl rfl h fun f7 rs2 rs1 f3 rd e7 e2 e3 => ?_
    obtain rfl := (ones7 f7).symm.trans e7
    obtain rfl := (ones5 rs2).symm.trans e2
    obtain rfl := (ones3 f3).symm.trans e3
    exact ⟨_, rfl, rfl⟩
  | fmaddS | fmsubS | fnmsubS | fnmaddS =>
    refine decodesIn_of_and rfl rfl h fun f7 rs2 rs1 f3 rd e7 _ _ => ?_
    have precision : fmt f7 = 0b00#2 := (fmt_and f7).symm.trans (congrArg fmt e7)
    simp [opcode, decodeFields, decodeFmadd, decodeFmsub, decodeFnmsub, decodeFnmadd, precision, tableRow]
  | fmaddD | fmsubD | fnmsubD | fnmaddD =>
    refine decodesIn_of_and rfl rfl h fun f7 rs2 rs1 f3 rd e7 _ _ => ?_
    have precision : fmt f7 = 0b01#2 := (fmt_and f7).symm.trans (congrArg fmt e7)
    simp [opcode, decodeFields, decodeFmadd, decodeFmsub, decodeFnmsub, decodeFnmadd, precision, tableRow]
  | amoaddW | amoaddD | amoandW | amoandD | amomaxW | amomaxD | amomaxuW | amomaxuD | amominW | amominD | amominuW
  | amominuD | amoorW | amoorD | amoswapW | amoswapD | amoxorW | amoxorD | scW | scD =>
    refine decodesIn_of_and rfl rfl h fun f7 rs2 rs1 f3 rd e7 _ e3 => ?_
    obtain rfl := (ones3 f3).symm.trans e3
    obtain rfl | rfl | rfl | rfl := aq_rl_cases e7 <;> exact ⟨_, rfl, rfl⟩
  | lrW | lrD =>
    refine decodesIn_of_and rfl rfl h fun f7 rs2 rs1 f3 rd e7 e2 e3 => ?_
    obtain rfl := (ones5 rs2).symm.trans e2
    obtain rfl := (ones3 f3).symm.trans e3
    obtain rfl | rfl | rfl | rfl := aq_rl_cases e7 <;> exact ⟨_, rfl, rfl⟩
  | _ =>
    refine decodesIn_of_and rfl rfl h fun f7 rs2 rs1 f3 rd e7 _ e3 => ?_
    obtain rfl := (ones7 f7).symm.trans e7
    obtain rfl := (ones3 f3).symm.trans e3
    exact ⟨_, rfl, rfl⟩

/-- Settles O3: a word that decodes is the word of what it decodes to, which is in its row. -/
theorem decoderReadsTheTable : Obligations.DecoderReadsTheTable := by
  refine ⟨fun w i read => ?_, fun w j matched => decodesIn_of_match matched⟩
  obtain ⟨rfl, _⟩ := encodeOfDecode w i read
  exact encode_in_row i

/-! ### The opcodes (R103, R107) -/

/-- The 19 opcodes of the table (R107). -/
def listedOpcodes : List (BitVec 7) :=
  [0x03#7, 0x0F#7, 0x13#7, 0x17#7, 0x23#7, 0x33#7, 0x37#7, 0x63#7, 0x67#7, 0x6F#7, 0x73#7, 0x2F#7, 0x07#7, 0x27#7,
    0x43#7, 0x47#7, 0x4B#7, 0x4F#7, 0x53#7]

/-- Fields that select a row have a listed opcode. -/
theorem mem_listedOpcodes_of_decodeFields {f7 : BitVec 7} {rs2 rs1 : RegIdx} {f3 : BitVec 3} {rd : RegIdx}
    {op : BitVec 7} {i : Instr} (h : decodeFields f7 rs2 rs1 f3 rd op = some i) : op ∈ listedOpcodes := by
  unfold decodeFields at h
  split at h
  case h_20 => cases h
  all_goals simp [listedOpcodes]

theorem decodeWord_ne_ok_of_unlisted {w : Word} (unlisted : opcode w ∉ listedOpcodes) (i : Instr) :
    decodeWord w ≠ .ok i :=
  fun read => unlisted (mem_listedOpcodes_of_decodeFields ((decodeWord_eq_ok_iff w i).mp read))

/-- Settles O4: the opcodes of the all-zero and of the all-ones word are not listed either. -/
theorem unlistedOpcodesAreIllegal : Obligations.UnlistedOpcodesAreIllegal :=
  ⟨fun _ i unlisted => decodeWord_ne_ok_of_unlisted unlisted i, decodeWord_ne_ok_of_unlisted (by decide),
    decodeWord_ne_ok_of_unlisted (by decide)⟩

/-! ### Rows that are not admitted (R103, R104) -/

/-- Outside the base group, a row that needs XLEN = 64 is illegal by its own meaning, and every other meaning asks first
whether its group is admitted. -/
theorem exec_not_admitted {i : Instr} {s : State} (h : i.group.admitted s.params = false) : exec i s = s.illegal i := by
  cases i with
  | add | addi | and | andi | auipc | lui | or | ori | sll | slli | slt | slti | sltiu | sltu | sra | srai | srl | srli
  | sub | xor | xori | beq | bge | bgeu | blt | bltu | bne | jal | jalr | lb | lbu | lh | lhu | lw | sb | sh | sw
  | csrrc | csrrci | csrrs | csrrsi | csrrw | csrrwi | ebreak | ecall | fence | fenceI => cases h
  | fmvDX | fmvXD | fcvtSL | fcvtDL | fcvtSLu | fcvtDLu | fcvtLS | fcvtLD | fcvtLuS | fcvtLuD | amoaddD | amoandD
  | amomaxD | amomaxuD | amominD | amominuD | amoorD | amoswapD | amoxorD | lrD | scD => rfl
  | _ => exact State.whenAdmitted_false h

/-- Settles O26. -/
theorem rowsNotAdmittedAreIllegal : Obligations.RowsNotAdmittedAreIllegal :=
  fun i s notAdmitted => State.gives_of (exec_not_admitted notAdmitted) (s.illegal_answers i)

/-- No configuration admits the group that needs XLEN = 64. -/
theorem State.gives_illegal_of_needs64 (s : State) {i : Instr} (needs64 : i.group = .needs64) :
    s.gives i fun t => s.trapped t .illegalInstruction (encode i) :=
  rowsNotAdmittedAreIllegal i s (by rw [needs64]; rfl)

/-- Settles O27: each of the 21 rows is of that group. -/
theorem rowsThatNeedXlen64 : Obligations.RowsThatNeedXlen64 := by
  intro s rd rs1 rs2 rm aq rl
  refine ⟨?_, ?_, ?_, ?_, ?_, ?_, ?_, ?_, ?_, ?_, ?_, ?_, ?_, ?_, ?_, ?_, ?_, ?_, ?_, ?_, ?_⟩ <;>
    exact s.gives_illegal_of_needs64 rfl

end Sys2Proof.Machine

/-! The statements of 40_rv32i_integer.md: each integer instruction writes the exact result modulo 2^32 to its register and
changes nothing else; and twelve words that the spec prints. -/

namespace Sys2Proof.Machine

open Sys2Proof.Laws

/-! ### What the operations on words compute (40_rv32i_integer.md R120 to R122) -/

section
variable {w : Nat} (x y : BitVec w) (n : Nat)

theorem add_eq_ofInt_toInt : x + y = BitVec.ofInt w (x.toInt + y.toInt) := by
  rw [BitVec.ofInt_add, BitVec.ofInt_toInt, BitVec.ofInt_toInt]

theorem sub_eq_ofInt_toInt : x - y = BitVec.ofInt w (x.toInt - y.toInt) := by
  rw [Int.sub_eq_add_neg, BitVec.ofInt_add, BitVec.ofInt_neg, BitVec.ofInt_toInt, BitVec.ofInt_toInt,
    BitVec.sub_eq_add_neg]

/-- A shift to the left loses the bits past the width. -/
theorem shiftLeft_eq_ofNat_mul : x <<< n = BitVec.ofNat w (x.toNat * 2 ^ n) := by
  rw [← Nat.shiftLeft_eq]
  rfl

/-- The logical shift rounds the unsigned quotient down. -/
theorem ushiftRight_eq_ofNat_div : x >>> n = BitVec.ofNat w (x.toNat / 2 ^ n) := by
  rw [← Nat.shiftRight_eq_div_pow, ← BitVec.toNat_ushiftRight, BitVec.ofNat_toNat, BitVec.setWidth_eq]

/-- The arithmetic shift rounds the signed quotient down. -/
theorem sshiftRight_eq_ofInt_div : x.sshiftRight n = BitVec.ofInt w (x.toInt / 2 ^ n) := by
  rw [BitVec.sshiftRight_eq, Int.shiftRight_eq_div_pow, Nat.cast_pow, Nat.cast_ofNat]

end

/-- `x[rs2][4:0]` is `x[rs2]` modulo 32 (R122). -/
theorem shiftAmount_eq_mod (v : Word) : shiftAmount v = v.toNat % 32 := by
  rw [shiftAmount, BitVec.extractLsb'_toNat, Nat.shiftRight_zero]

/-- `imm_U` is the field times 2^12 (30_encoding.md R87). -/
theorem upper20_eq_ofNat (imm : BitVec 20) : upper20 imm = BitVec.ofNat 32 (imm.toNat * 2 ^ 12) := by
  apply BitVec.eq_of_toNat_eq
  have fits : imm.toNat * 2 ^ 12 < 2 ^ (20 + 12) := by omega
  have zeros : (0#12).toNat = 0 := rfl
  rw [upper20, BitVec.toNat_append, zeros, Nat.or_zero, Nat.shiftLeft_eq, BitVec.toNat_ofNat, Nat.mod_eq_of_lt fits]

/-- `imm_I` has the signed value of its field (30_encoding.md R84). -/
theorem toInt_sext12 (imm : BitVec 12) : (sext12 imm).toInt = imm.toInt := BitVec.toInt_signExtend_of_le (by decide)

/-- Past the field's top bit, a sign-extended immediate repeats it (30_encoding.md R84). -/
theorem getLsbD_sext12 (imm : BitVec 12) {k : Nat} (hk : k < 32) : (sext12 imm).getLsbD k = imm.getLsbD (min k 11) := by
  rw [sext12, BitVec.getLsbD_signExtend, decide_eq_true hk, Bool.true_and]
  split
  case isTrue inField => rw [Nat.min_eq_left (by omega)]
  case isFalse above => rw [Nat.min_eq_right (by omega), BitVec.msb_eq_getLsbD_last]

/-- The 1 or 0 of a comparison (R121). -/
theorem boolWord_decide (p : Prop) [Decidable p] : boolWord (decide p) = if p then 1#32 else 0#32 := by
  by_cases h : p <;> simp [boolWord, h]

/-! ### What a register result does

The meaning computes the word `v`; the claim may spell it `u`. -/

theorem State.gives_onlyX (s : State) {i : Instr} {rd : RegIdx} {v u : Word} (e : exec i s = s.finishX rd v)
    (h : v = u) : s.gives i fun t => s.onlyX t rd u := by
  subst h
  exact State.gives_of e (s.finishX_answers rd v)

/-- The result told bit by bit. -/
theorem State.gives_onlyX_bits (s : State) {i : Instr} {rd : RegIdx} {v : Word} {bit : Nat → Bool}
    (e : exec i s = s.finishX rd v) (h : ∀ k < 32, v.getLsbD k = bit k) :
    s.gives i fun t => ∃ u, s.onlyX t rd u ∧ ∀ k < 32, u.getLsbD k = bit k := by
  obtain ⟨t, runs, only⟩ := s.gives_onlyX e rfl
  exact ⟨t, runs, v, only, h⟩

/-! ### The statements -/

/-- Settles O8: each meaning is one register result; what is left is the arithmetic of its word. -/
theorem integerSums : Obligations.IntegerSums := by
  intro s rd rs1 rs2
  refine ⟨⟨EncodeRow.add .., s.gives_onlyX rfl ?add⟩, ⟨EncodeRow.sub .., s.gives_onlyX rfl ?sub⟩,
    fun imm => ⟨EncodeRow.addi .., s.gives_onlyX rfl ?addi⟩, fun imm => ⟨EncodeRow.lui .., s.gives_onlyX rfl ?lui⟩,
    fun imm => ⟨EncodeRow.auipc .., s.gives_onlyX rfl ?auipc⟩⟩
  case add => exact BitVec.add_def ..
  case sub => exact sub_eq_ofInt_toInt ..
  case addi => rw [add_eq_ofInt_toInt, toInt_sext12]
  case lui => exact upper20_eq_ofNat imm
  case auipc => rw [upper20_eq_ofNat, BitVec.ofNat_add, BitVec.ofNat_toNat, BitVec.setWidth_eq]

/-- Settles O9: a bitwise operation works on each bit, and the immediate's bits are those of its sign extension. -/
theorem integerLogic : Obligations.IntegerLogic := by
  intro s rd rs1 rs2 imm
  refine ⟨⟨EncodeRow.and .., s.gives_onlyX_bits rfl ?and⟩, ⟨EncodeRow.or .., s.gives_onlyX_bits rfl ?or⟩,
    ⟨EncodeRow.xor .., s.gives_onlyX_bits rfl ?xor⟩, ⟨EncodeRow.andi .., s.gives_onlyX_bits rfl ?andi⟩,
    ⟨EncodeRow.ori .., s.gives_onlyX_bits rfl ?ori⟩, ⟨EncodeRow.xori .., s.gives_onlyX_bits rfl ?xori⟩⟩
  case and => exact fun _ _ => BitVec.getLsbD_and
  case or => exact fun _ _ => BitVec.getLsbD_or
  case xor => exact fun _ _ => BitVec.getLsbD_xor
  case andi => intro k hk; rw [BitVec.getLsbD_and, getLsbD_sext12 imm hk]
  case ori => intro k hk; rw [BitVec.getLsbD_or, getLsbD_sext12 imm hk]
  case xori => intro k hk; rw [BitVec.getLsbD_xor, getLsbD_sext12 imm hk]

/-- Settles O10: one lemma per direction of shift, for either kind of amount. -/
theorem integerShifts : Obligations.IntegerShifts := by
  intro s rd rs1 rs2 shamt
  rw [← shiftAmount_eq_mod]
  exact ⟨⟨EncodeRow.sll .., s.gives_onlyX rfl (shiftLeft_eq_ofNat_mul ..)⟩,
    ⟨EncodeRow.srl .., s.gives_onlyX rfl (ushiftRight_eq_ofNat_div ..)⟩,
    ⟨EncodeRow.sra .., s.gives_onlyX rfl (sshiftRight_eq_ofInt_div ..)⟩,
    ⟨EncodeRow.slli .., s.gives_onlyX rfl (shiftLeft_eq_ofNat_mul ..)⟩,
    ⟨EncodeRow.srli .., s.gives_onlyX rfl (ushiftRight_eq_ofNat_div ..)⟩,
    ⟨EncodeRow.srai .., s.gives_onlyX rfl (sshiftRight_eq_ofInt_div ..)⟩⟩

/-- Settles O11: the signed order is that of `toInt`, the unsigned order that of `toNat`. -/
theorem integerComparisons : Obligations.IntegerComparisons := by
  intro s rd rs1 rs2 imm
  rw [← toInt_sext12 imm, BitVec.ofInt_toInt]
  exact ⟨⟨EncodeRow.slt .., s.gives_onlyX rfl (boolWord_decide _)⟩,
    ⟨EncodeRow.sltu .., s.gives_onlyX rfl (boolWord_decide _)⟩,
    ⟨EncodeRow.slti .., s.gives_onlyX rfl (boolWord_decide _)⟩,
    ⟨EncodeRow.sltiu .., s.gives_onlyX rfl (boolWord_decide _)⟩⟩

/-! ### Words that the spec prints -/

/-- To read a word is to know the well-formed instruction it is the word of. -/
theorem decodeWord_of_encode {w : Word} {i : Instr} (word : encode i = w) (wf : i.WellFormed) : decodeWord w = .ok i := by
  subst word
  exact decodeOfEncode i wf

/-- Settles O5: each word is what its instruction encodes to. -/
theorem specWordsDecode : Obligations.SpecWordsDecode := by
  refine ⟨?_, ?_, ?_, ?_, ?_, ?_, ?_, ?_, ?_, ?_, ?_, ?_⟩ <;> exact decodeWord_of_encode rfl rfl

end Sys2Proof.Machine

/-! The statements of 41_rv32i_control.md: the six branches and the two jumps, each in its cases, and when one of them traps on
its target. -/

namespace Sys2Proof.Machine

open Sys2Proof.Laws

/-! ### Where the instructions go (41_rv32i_control.md R150 to R159) -/

/-- A comparison that holds unless the strict order does (R153, R154). -/
theorem not_decide_lt_iff {α : Type} [LinearOrder α] (a b : α) : (!decide (a < b)) = true ↔ b ≤ a := by
  rw [Bool.not_eq_true', decide_eq_false_iff_not, not_lt]

/-- Settles O12: each meaning is a branch on its own comparison, signed by `toInt` and unsigned by `toNat`. -/
theorem branches : Obligations.Branches := fun _ _ _ _ =>
  ⟨⟨EncodeRow.beq .., State.branchesWhen_of rfl beq_iff_eq⟩,
    ⟨EncodeRow.bne .., State.branchesWhen_of rfl bne_iff_ne⟩,
    ⟨EncodeRow.blt .., State.branchesWhen_of rfl decide_eq_true_iff⟩,
    ⟨EncodeRow.bge .., State.branchesWhen_of rfl (not_decide_lt_iff _ _)⟩,
    ⟨EncodeRow.bltu .., State.branchesWhen_of rfl decide_eq_true_iff⟩,
    ⟨EncodeRow.bgeu .., State.branchesWhen_of rfl (not_decide_lt_iff _ _)⟩⟩

/-- Settles O13: each meaning links and jumps to its own target, which it reads before it writes `x[rd]`. -/
theorem jumps : Obligations.Jumps := fun _ _ _ =>
  ⟨fun _ => ⟨EncodeRow.jal .., State.jumpsTo_of rfl⟩, fun _ => ⟨EncodeRow.jalr .., State.jumpsTo_of rfl⟩⟩

/-! ### Which targets are aligned (R150) -/

/-- A sign extension adds a multiple of `2 ^ w`, which 4 divides. -/
theorem toNat_signExtend_mod_four {w : Nat} (off : BitVec w) (atLeast : 2 ≤ w) (atMost : w ≤ 32) :
    (off.signExtend 32).toNat % 4 = off.toNat % 4 := by
  have filled : 4 ∣ 2 ^ 32 - 2 ^ w := Nat.dvd_sub (by decide) (pow_dvd_pow 2 atLeast)
  rw [BitVec.toNat_signExtend, BitVec.toNat_setWidth_of_le atMost]
  split <;> omega

/-- From an aligned `pc`, an offset decides alone how its target is aligned (10_state.md R27). -/
theorem toNat_add_signExtend_mod_four {w : Nat} {pc : Word} (aligned : pc.toNat % 4 = 0) (off : BitVec w)
    (atLeast : 2 ≤ w) (atMost : w ≤ 32) : (pc + off.signExtend 32).toNat % 4 = off.toNat % 4 := by
  have offset := toNat_signExtend_mod_four off atLeast atMost
  rw [BitVec.toNat_add]
  omega

/-- An even offset misses a multiple of 4 by 2 (30_encoding.md R86, R88). -/
theorem target_misaligned_iff {w : Nat} {pc : Word} (aligned : pc.toNat % 4 = 0) {off : BitVec w} (even : off.toNat % 2 = 0)
    (atLeast : 2 ≤ w) (atMost : w ≤ 32) : (pc + off.signExtend 32).toNat % 4 ≠ 0 ↔ off.toNat % 4 = 2 := by
  rw [toNat_add_signExtend_mod_four aligned off atLeast atMost]
  omega

/-- With bit 0 cleared, bit 1 alone is left of the two low bits (R159). -/
theorem clearBit0_misaligned_iff (a : Word) : (a &&& 0xFFFFFFFE#32).toNat % 4 ≠ 0 ↔ a.getLsbD 1 = true := by
  have bit1 : ∀ low : BitVec 2, (low &&& 2#2).toNat ≠ 0 ↔ low.getLsbD 1 = true := by decide
  have cleared : (a &&& 0xFFFFFFFE#32).setWidth 2 = a.setWidth 2 &&& 2#2 := BitVec.setWidth_and
  calc (a &&& 0xFFFFFFFE#32).toNat % 4 ≠ 0
    _ ↔ (a.setWidth 2 &&& 2#2).toNat ≠ 0 := by rw [← cleared, BitVec.toNat_setWidth]
    _ ↔ (a.setWidth 2).getLsbD 1 = true := bit1 _
    _ ↔ a.getLsbD 1 = true := by rw [BitVec.getLsbD_setWidth, decide_eq_true (by decide), Bool.true_and]

/-! ### When the trap is taken (R150) -/

section
variable {s : State} {i : Instr}

/-- What the trap records is its cause, whatever the target. -/
theorem State.misaligns_of_trapped {a : Word} (h : s.gives i fun t => s.trapped t .instructionAddressMisaligned a) :
    s.misaligns i := by
  obtain ⟨t, runs, _, _, _, _, _, _, _, _, _, record⟩ := h
  exact ⟨t, runs, a, record⟩

/-- An instruction has one next state: if that keeps a record that was none, no trap was taken. -/
theorem State.not_misaligns {post : State → Prop} (running : s.trap = none) (h : s.gives i post)
    (keeps : ∀ t, post t → t.trap = s.trap) : ¬ s.misaligns i := by
  rintro ⟨t, runs, a, record⟩
  obtain ⟨u, runs', p⟩ := h
  cases runs.symm.trans runs'
  exact nomatch record.symm.trans ((keeps t p).trans running)

theorem State.onlyPc.trap_eq {a : Word} (t : State) (h : s.onlyPc t a) : t.trap = s.trap := by
  obtain ⟨_, _, _, _, _, _, _, _, trap⟩ := h
  exact trap

theorem State.onlyLink.trap_eq {rd : RegIdx} {a : Word} (t : State) (h : s.onlyLink t rd a) : t.trap = s.trap := by
  obtain ⟨_, _, _, _, _, _, _, _, trap⟩ := h
  exact trap

/-- Of a branch's three cases one traps. -/
theorem State.branchesWhen.misaligns_iff {off : BitVec 13} {cond : Prop} (h : s.branchesWhen i off cond)
    (running : s.trap = none) : s.misaligns i ↔ cond ∧ (s.pc + off.signExtend 32).toNat % 4 ≠ 0 := by
  obtain ⟨taken, misaligned, notTaken⟩ := h
  refine ⟨fun traps => ?_, fun ⟨c, target⟩ => State.misaligns_of_trapped (misaligned c target)⟩
  have c : cond := by_contra fun c => State.not_misaligns running (notTaken c) State.onlyPc.trap_eq traps
  exact ⟨c, fun target => State.not_misaligns running (taken c target) State.onlyPc.trap_eq traps⟩

/-- Of a jump's two cases one traps. -/
theorem State.jumpsTo.misaligns_iff {rd : RegIdx} {a : Word} (h : s.jumpsTo i rd a) (running : s.trap = none) :
    s.misaligns i ↔ a.toNat % 4 ≠ 0 := by
  obtain ⟨linked, misaligned⟩ := h
  exact ⟨fun traps target => State.not_misaligns running (linked target) State.onlyLink.trap_eq traps,
    fun target => State.misaligns_of_trapped (misaligned target)⟩

/-- The same of a branch by its offset. -/
theorem State.branchesWhen.misaligns_iff_offset {off : BitVec 13} {cond : Prop} (h : s.branchesWhen i off cond)
    (running : s.trap = none) (aligned : s.pcAligned) (even : off.toNat % 2 = 0) :
    s.misaligns i ↔ cond ∧ off.toNat % 4 = 2 := by
  rw [h.misaligns_iff running, target_misaligned_iff aligned even (by decide) (by decide)]

end

/-- Settles O14: a target off the multiples of 4 is what traps, and from an aligned `pc` the offset tells which are. -/
theorem misalignedTargets : Obligations.MisalignedTargets := by
  intro s rd rs1 rs2 running aligned
  obtain ⟨jal, jalr⟩ := jumps s rd rs1
  refine ⟨fun off even => ?branch, fun off even => ?jal, fun imm => ?jalr⟩
  case branch =>
    obtain ⟨⟨_, beq⟩, ⟨_, bne⟩, ⟨_, blt⟩, ⟨_, bge⟩, ⟨_, bltu⟩, ⟨_, bgeu⟩⟩ := branches s rs1 rs2 off
    exact ⟨beq.misaligns_iff_offset running aligned even, bne.misaligns_iff_offset running aligned even,
      blt.misaligns_iff_offset running aligned even, bge.misaligns_iff_offset running aligned even,
      bltu.misaligns_iff_offset running aligned even, bgeu.misaligns_iff_offset running aligned even⟩
  case jal =>
    obtain ⟨_, goes⟩ := jal off
    rw [goes.misaligns_iff running, target_misaligned_iff aligned even (by decide) (by decide)]
  case jalr =>
    obtain ⟨_, goes⟩ := jalr imm
    rw [goes.misaligns_iff running, clearBit0_misaligned_iff]

end Sys2Proof.Machine

/-! The statements of 42_rv32i_loadstore.md: the integer loads and stores, each in its three cases, with the value or the bytes
that it moves. -/

namespace Sys2Proof.Machine

open Sys2Proof.Laws

/-! ### What the accesses move (20_memory.md R52, 42_rv32i_loadstore.md R175, R177, R178) -/

/-- The upper of two joined patterns counts by the width of the lower. -/
theorem toNat_append_eq_add {m n : Nat} (hi : BitVec m) (lo : BitVec n) :
    (hi ++ lo).toNat = lo.toNat + 2 ^ n * hi.toNat := by
  rw [BitVec.toNat_append, ← Nat.shiftLeft_add_eq_or_of_lt lo.isLt, Nat.shiftLeft_eq, Nat.mul_comm, Nat.add_comm]

/-- The zero-extended halfword by its two bytes. -/
theorem State.setWidth_read16 (s : State) (a : Word) :
    (s.read16 a).setWidth 32 = BitVec.ofNat 32 ((s.byte a).toNat + 2 ^ 8 * (s.byte (a + 1#32)).toNat) := by
  rw [← BitVec.ofNat_toNat, State.read16, toNat_append_eq_add]

/-- The byte that sb stores is the lowest of the word. -/
theorem lowByte_eq (v : Word) : [v.extractLsb' 0 8] = (littleEndian v).take 1 := by
  rw [← bytes32_eq]
  rfl

/-- The bytes that sh stores are the two lowest of the word. -/
theorem bytes16_lowHalf_eq (v : Word) : bytes16 (v.extractLsb' 0 16) = (littleEndian v).take 2 := by
  rw [← bytes32_eq, bytes16, extractLsb'_extractLsb'_add v (by decide), extractLsb'_extractLsb'_add v (by decide)]
  rfl

/-! ### What a load and a store do

The meaning computes the value or the bytes in one spelling; the claim may have another. -/

section
variable {s : State} {i : Instr} {rs1 : RegIdx} {imm : BitVec 12}

/-- A load leaves its extended value in `x[rd]`, once its checks pass (R171). -/
theorem State.loadsFrom_onlyX {n : Nat} {rd : RegIdx} {v : Word} (value : Word → Word)
    (e : exec i s = s.load n rd rs1 imm value) (h : value (s.readX rs1 + imm.signExtend 32) = v) :
    s.loadsFrom i (s.readX rs1 + imm.signExtend 32) n fun t => s.onlyX t rd v := by
  subst h
  exact State.loadsFrom_of e (s.finishX_answers rd _)

/-- A store puts its bytes in memory, once its checks pass (R180). -/
theorem State.storesTo_bytes {bs cs : List Byte} (e : exec i s = s.storeAt rs1 imm bs) (h : bs = cs) (hl : cs.length ≤ 8) :
    s.storesTo i (s.readX rs1 + imm.signExtend 32) cs := by
  subst h
  exact State.storesTo_of e hl

end

/-! ### The statements -/

/-- Settles O15: each meaning is a load of its own extension; what is left is the value of that. -/
theorem loads : Obligations.Loads := by
  intro s rd rs1 imm
  refine ⟨⟨EncodeRow.lb .., State.loadsFrom_onlyX (fun a => (s.byte a).signExtend 32) rfl ?lb⟩,
    ⟨EncodeRow.lbu .., State.loadsFrom_onlyX (fun a => (s.byte a).setWidth 32) rfl ?lbu⟩,
    ⟨EncodeRow.lh .., State.loadsFrom_onlyX (fun a => (s.read16 a).signExtend 32) rfl ?lh⟩,
    ⟨EncodeRow.lhu .., State.loadsFrom_onlyX (fun a => (s.read16 a).setWidth 32) rfl ?lhu⟩,
    ⟨EncodeRow.lw .., State.loadsFrom_onlyX s.read32 rfl ?lw⟩⟩
  case lb | lh => rfl -- the sign extension is defined as the word of the signed value
  case lbu => exact (BitVec.ofNat_toNat ..).symm
  case lhu => exact s.setWidth_read16 _
  case lw => exact s.read32_eq _

/-- Settles O16: each meaning is a store of the lowest bytes of `x[rs2]`. -/
theorem stores : Obligations.Stores := by
  intro s rs1 rs2 imm
  have fits : (littleEndian (s.readX rs2)).length ≤ 8 := Nat.le_of_ble_eq_true rfl
  have lowFits (n : Nat) : ((littleEndian (s.readX rs2)).take n).length ≤ 8 := (List.length_take_le' ..).trans fits
  exact ⟨⟨EncodeRow.sb .., State.storesTo_bytes rfl (lowByte_eq _) (lowFits 1)⟩,
    ⟨EncodeRow.sh .., State.storesTo_bytes rfl (bytes16_lowHalf_eq _) (lowFits 2)⟩,
    ⟨EncodeRow.sw .., State.storesTo_bytes rfl (bytes32_eq _) fits⟩⟩

end Sys2Proof.Machine

/-! The statements of 43_rv32i_system.md: the six CSR instructions, the two that trap into the environment, and the fences. -/

namespace Sys2Proof.Machine

open Sys2Proof.Laws

/-! ### The CSR instructions (43_rv32i_system.md R190 to R196) -/

/-- A zero-extended immediate has the value of its field (30_encoding.md R90). -/
theorem zext5_eq_ofNat (uimm : BitVec 5) : zext5 uimm = BitVec.ofNat 32 uimm.toNat := (BitVec.ofNat_toNat ..).symm

/-- Settles O19: each meaning is the access of R190 with its own new value. csrrw and csrrwi always write, and read unless
the field `rd` is 0; the others always read, and write unless the field `rs1` or `uimm` is 0. -/
theorem csrInstructions : Obligations.CsrInstructions := by
  intro s rd rs1 uimm csr
  rw [← zext5_eq_ofNat uimm]
  have always : true = true ↔ True := eq_self_iff_true true
  have unlessZero (field : BitVec 5) : (field != 0#5) = true ↔ field ≠ 0#5 := bne_iff_ne
  exact ⟨⟨EncodeRow.csrrw .., State.runsCsr_of rfl always (unlessZero rd)⟩,
    ⟨EncodeRow.csrrs .., State.runsCsr_of rfl (unlessZero rs1) always⟩,
    ⟨EncodeRow.csrrc .., State.runsCsr_of rfl (unlessZero rs1) always⟩,
    ⟨EncodeRow.csrrwi .., State.runsCsr_of rfl always (unlessZero rd)⟩,
    ⟨EncodeRow.csrrsi .., State.runsCsr_of rfl (unlessZero uimm) always⟩,
    ⟨EncodeRow.csrrci .., State.runsCsr_of rfl (unlessZero uimm) always⟩⟩

/-! ### The environment instructions (R206, R207) -/

/-- Settles O21: each has one word, and its meaning raises its trap. -/
theorem environmentInstructions : Obligations.EnvironmentInstructions := fun s =>
  ⟨rfl, State.gives_of rfl (s.raise_answers .environmentCall 0#32), rfl, State.gives_of rfl (s.raise_answers .breakpoint s.pc)⟩

/-! ### The fences (R208, R209) -/

/-- Settles O22: a fence only goes on to the next word; fence.i does so from the state with nothing stale. -/
theorem fences : Obligations.Fences := by
  intro s rd rs1 imm
  refine ⟨⟨EncodeRow.fence .., State.gives_of rfl (.next s.onlyPc_advance)⟩,
    ⟨EncodeRow.fenceI .., State.gives_of rfl (.next ?fenceI)⟩⟩
  obtain ⟨keepsX, pc, keepsF, keepsCsrs, keepsMem, ⟨stale, reservation⟩, keepsModel⟩ :=
    State.onlyPc_advance { s with stale := [] }
  exact ⟨keepsX, pc, keepsF, keepsCsrs, keepsMem, stale, reservation, keepsModel⟩

end Sys2Proof.Machine

/-! The statements of 44_m_multiply.md: each of the eight instructions writes its word to `x[rd]` and changes nothing else, and
quotient and remainder give back the dividend. -/

namespace Sys2Proof.Machine

open Sys2Proof.Laws

/-! ### What the operations on words compute (44_m_multiply.md R220, R230) -/

/-- Bits 63 to 32 are the exact product over 2^32, rounded down. -/
theorem highHalf_eq_ofInt_div (p : Int) : highHalf p = BitVec.ofInt 32 (p / 2 ^ 32) := by
  apply BitVec.eq_of_toNat_eq
  rw [highHalf, BitVec.extractLsb'_toNat, BitVec.toNat_ofInt, BitVec.toNat_ofInt, Nat.shiftRight_eq_div_pow]
  omega

/-- The same of an unsigned product. -/
theorem highHalf_natCast_mul (m n : Nat) : highHalf ((m : Int) * (n : Int)) = BitVec.ofNat 32 (m * n / 2 ^ 32) := by
  rw [highHalf_eq_ofInt_div, ← BitVec.ofInt_natCast]
  norm_cast

/-- What a quotient rounded toward zero leaves of the dividend is the remainder with the sign of the dividend, `tmod`. -/
theorem remSigned_eq_tmod (a b : Word) : remSigned a b = if b = 0#32 then a
    else if a = 0x80000000#32 ∧ b = 0xFFFFFFFF#32 then 0#32 else BitVec.ofInt 32 (a.toInt.tmod b.toInt) := by
  rw [remSigned, Int.tmod_def]

section
variable {w : Nat} (a b : BitVec w)

/-- Short of overflow, the signed quotient fits in the word. -/
theorem toInt_ofInt_tdiv (noOverflow : ¬ (a = BitVec.intMin w ∧ b = -1#w)) :
    (BitVec.ofInt w (a.toInt.tdiv b.toInt)).toInt = a.toInt.tdiv b.toInt := by
  rw [BitVec.toInt_ofInt, ← BitVec.toInt_sdiv, BitVec.toInt_sdiv_of_ne_or_ne a b (not_and_or.mp noOverflow)]

/-- The signed remainder always fits. -/
theorem toInt_ofInt_tmod : (BitVec.ofInt w (a.toInt.tmod b.toInt)).toInt = a.toInt.tmod b.toInt := by
  rw [← BitVec.toInt_srem, BitVec.ofInt_toInt]

end

/-- A remainder is smaller than its divisor. -/
theorem natAbs_tmod_lt {d : Int} (nonzero : d ≠ 0) (n : Int) : (n.tmod d).natAbs < d.natAbs := by
  rw [Int.natAbs_tmod]
  exact Nat.mod_lt _ (Int.natAbs_pos.mpr nonzero)

/-- A remainder of a dividend that is not positive is not positive either. -/
theorem tmod_nonpos {n : Int} (nonpos : n ≤ 0) (d : Int) : n.tmod d ≤ 0 := by
  have negated : 0 ≤ (-n).tmod d := Int.tmod_nonneg d (Int.neg_nonneg_of_nonpos nonpos)
  rw [Int.neg_tmod] at negated
  exact Int.nonpos_of_neg_nonneg negated

/-! ### What is in `x[rd]` afterwards -/

/-- The result can be read back, unless it went to x0 (10_state.md R22). -/
theorem State.onlyX.readX_eq {s t : State} {rd : RegIdx} {v : Word} (h : s.onlyX t rd v) (notX0 : rd ≠ 0#5) :
    t.readX rd = v := by
  obtain ⟨sets, _⟩ := h
  rw [sets rd, if_pos ⟨rfl, notX0⟩]

/-! ### The statements -/

/-- Settles O23: the low word of a product is the product of the words, the high word is that of `highHalf`. -/
theorem products : Obligations.Products := by
  intro s rd rs1 rs2 admitted
  refine ⟨⟨EncodeRow.mul .., s.gives_onlyX (State.whenAdmitted_true admitted) ?mul⟩,
    ⟨EncodeRow.mulh .., s.gives_onlyX (State.whenAdmitted_true admitted) (highHalf_eq_ofInt_div _)⟩,
    ⟨EncodeRow.mulhsu .., s.gives_onlyX (State.whenAdmitted_true admitted) (highHalf_eq_ofInt_div _)⟩,
    ⟨EncodeRow.mulhu .., s.gives_onlyX (State.whenAdmitted_true admitted) (highHalf_natCast_mul _ _)⟩⟩
  case mul => rw [BitVec.ofNat_mul, BitVec.ofNat_toNat, BitVec.ofNat_toNat, BitVec.setWidth_eq, BitVec.setWidth_eq]

/-- Settles O24: three of the meanings are written with the cases of the claim; rem has another spelling of the remainder. -/
theorem quotients : Obligations.Quotients := fun s _ _ _ admitted =>
  ⟨⟨EncodeRow.div .., s.gives_onlyX (State.whenAdmitted_true admitted) rfl⟩,
    ⟨EncodeRow.divu .., s.gives_onlyX (State.whenAdmitted_true admitted) rfl⟩,
    ⟨EncodeRow.rem .., s.gives_onlyX (State.whenAdmitted_true admitted) (remSigned_eq_tmod _ _)⟩,
    ⟨EncodeRow.remu .., s.gives_onlyX (State.whenAdmitted_true admitted) rfl⟩⟩

/-- Settles O25: the results are those of O24; none of them overflows its word, so that division with remainder holds of
them as it does of the integers. -/
theorem divisionIdentity : Obligations.DivisionIdentity := by
  intro s rd rs1 rs2 admitted notX0 nonzero
  obtain ⟨⟨_, q, runsDiv, quotient⟩, ⟨_, qu, runsDivu, quotientU⟩, ⟨_, r, runsRem, remainder⟩,
    ⟨_, ru, runsRemu, remainderU⟩⟩ := quotients s rd rs1 rs2 admitted
  refine ⟨fun noOverflow => ⟨q, r, runsDiv, runsRem, ?signed⟩, qu, ru, runsDivu, runsRemu, ?unsigned⟩
  case signed =>
    have nonzeroInt : (s.readX rs2).toInt ≠ 0 := BitVec.toInt_zero ▸ BitVec.toInt_ne.mpr nonzero
    rw [quotient.readX_eq notX0, remainder.readX_eq notX0]
    simp only [if_neg nonzero, if_neg noOverflow]
    rw [toInt_ofInt_tdiv _ _ noOverflow, toInt_ofInt_tmod]
    exact ⟨(Int.mul_tdiv_add_tmod ..).symm, natAbs_tmod_lt nonzeroInt _, Int.tmod_nonneg _, fun h => tmod_nonpos h _⟩
  case unsigned =>
    have positive : 0 < (s.readX rs2).toNat := Nat.pos_of_ne_zero (BitVec.toNat_ne.mp nonzero)
    rw [quotientU.readX_eq notX0, remainderU.readX_eq notX0, if_neg nonzero, if_neg nonzero, ← BitVec.udiv_def,
      ← BitVec.umod_def, BitVec.toNat_udiv, BitVec.toNat_umod]
    exact ⟨(Nat.div_add_mod ..).symm, Nat.mod_lt _ positive⟩

end Sys2Proof.Machine

/-! The statements of 45_fd_float.md about the instructions of the F and D groups: the loads and stores, the arithmetic and the
conversions over whatever `FP_NUMERICS` is in force, the sign injections, the moves, the rounding modes and the accrued
flags. -/

namespace Sys2Proof.Machine

open Sys2Proof.Laws

/-! ### Single values in the f registers (10_state.md R34, 45_fd_float.md R312) -/

theorem hasD_eq_extD {p : Params} (hF : p.extF = true) : hasD p = p.extD := by rw [hasD, hF, Bool.true_and]

/-- The upper half of a slot in plain numbers. -/
theorem upperHalf_eq_ones_iff (v : DWord) : v.extractLsb' 32 32 = 0xFFFFFFFF#32 ↔ v.toNat / 2 ^ 32 = 0xFFFFFFFF := by
  have bound := v.isLt
  rw [← BitVec.toNat_inj, BitVec.extractLsb'_toNat, Nat.shiftRight_eq_div_pow, BitVec.toNat_ofNat]
  omega

/-- The operand that a meaning reads is the unboxed single of R312. -/
theorem State.readS_eq_unboxed {s : State} (hF : s.params.extF = true) (r : RegIdx) : s.readS r = s.unboxed r := by
  simp only [State.readS, State.unboxed, hasD_eq_extD hF, Bool.and_eq_true, bne_iff_ne, ne_eq, upperHalf_eq_ones_iff]
  rw [canonicalSingle, State.readLow, ← BitVec.ofNat_toNat]

theorem boxS_eq_boxed {p : Params} (hF : p.extF = true) (v : Word) : boxS p v = boxed p v := boxS_eq p v hF

/-- The low half of a boxed single is the single. -/
theorem getLsbD_boxed (p : Params) (v : Word) {k : Nat} (hk : k < 32) : (boxed p v).getLsbD k = v.getLsbD k := by
  rw [boxed, BitVec.getLsbD_append, if_pos hk]

theorem upperHalf_boxed {p : Params} (hD : p.extD = true) (v : Word) :
    (boxed p v).extractLsb' 32 32 = 0xFFFFFFFF#32 := by
  rw [boxed, hD, if_pos rfl, append_high]

/-! ### What each kind of result does -/

section
variable {s : State} {i : Instr} {rd : RegIdx}

theorem State.gives_onlyF_boxed (hF : s.params.extF = true) {r : Word × FpFlags} (e : exec i s = s.finishS rd r) :
    s.gives i fun t => s.onlyF t rd (boxed s.params r.1) r.2 := by
  rw [← boxS_eq_boxed hF]
  exact State.gives_of e (s.finishS_answers rd r)

theorem State.gives_onlyF {r : DWord × FpFlags} (e : exec i s = s.finishD rd r) :
    s.gives i fun t => s.onlyF t rd r.1 r.2 := State.gives_of e (s.finishD_answers rd r)

theorem State.gives_onlyFlagsX {r : Word × FpFlags} (e : exec i s = s.finishFlagsX rd r) :
    s.gives i fun t => s.onlyFlagsX t rd r.1 r.2 := State.gives_of e (s.finishFlagsX_answers rd r)

/-- A bit result is zero-extended (R272). -/
theorem State.gives_bit {r : BitVec 1 × FpFlags} (e : exec i s = s.finishFlagsX rd (bitResult r)) :
    s.gives i fun t => s.onlyFlagsX t rd (BitVec.ofNat 32 r.1.toNat) r.2 := by
  rw [BitVec.ofNat_toNat]
  exact State.gives_onlyFlagsX e

end

/-! ### Arithmetic, selection and conversion (R244 to R261, R268 to R279, R284 to R299) -/

/-- Settles O29: past admission and the rounding mode, each meaning is one result of the numerics in force. -/
theorem fpArithmetic : Obligations.FpArithmetic := by
  intro s rd rs1 rs2 rm m hF mode
  simp only [← State.readS_eq_unboxed hF]
  refine ⟨?_, ?_, ?_, ?_, ?_, fun extD => ?double⟩
  case double =>
    have hD : hasD s.params = true := hasD_eq_extD hF ▸ extD
    refine ⟨?_, ?_, ?_, ?_, ?_⟩ <;> exact State.gives_onlyF (State.rounding_mode hD mode)
  all_goals exact State.gives_onlyF_boxed hF (State.rounding_mode hF mode)

/-- Settles O30: the operands' signs are flipped before the one fused operation. -/
theorem fpFusedMultiplyAdd : Obligations.FpFusedMultiplyAdd := by
  intro s rd rs1 rs2 rs3 rm m hF mode
  simp only [← State.readS_eq_unboxed hF]
  refine ⟨?_, ?_, ?_, ?_, fun extD => ?double⟩
  case double =>
    have hD : hasD s.params = true := hasD_eq_extD hF ▸ extD
    refine ⟨?_, ?_, ?_, ?_⟩ <;> exact State.gives_onlyF (State.rounding_mode hD mode)
  all_goals exact State.gives_onlyF_boxed hF (State.rounding_mode hF mode)

/-- Settles O32: no rounding mode is read; a comparison's bit goes to an x register. -/
theorem fpSelectAndCompare : Obligations.FpSelectAndCompare := by
  intro s rd rs1 rs2 hF
  simp only [← State.readS_eq_unboxed hF]
  refine ⟨?min, ?max, ?_, ?_, ?_, fun extD => ?double⟩
  case double =>
    have admitted : hasD s.params = true := hasD_eq_extD hF ▸ extD
    refine ⟨?minD, ?maxD, ?_, ?_, ?_⟩
    case minD | maxD => exact State.gives_onlyF (State.whenAdmitted_true admitted)
    all_goals exact State.gives_bit (State.whenAdmitted_true admitted)
  case min | max => exact State.gives_onlyF_boxed hF (State.whenAdmitted_true hF)
  all_goals exact State.gives_bit (State.whenAdmitted_true hF)

/-- Settles O34: each conversion rounds; those to an integer write an x register. -/
theorem fpConversions : Obligations.FpConversions := by
  intro s rd rs1 rm m hF mode
  simp only [← State.readS_eq_unboxed hF]
  refine ⟨?_, ?_, ?toInt, ?toUInt, fun extD => ?double⟩
  case double =>
    have hD : hasD s.params = true := hasD_eq_extD hF ▸ extD
    refine ⟨?_, ?narrow, ?_, ?_, ?toIntD, ?toUIntD⟩
    case narrow => exact State.gives_onlyF_boxed hF (State.rounding_mode hD mode)
    case toIntD | toUIntD => exact State.gives_onlyFlagsX (State.rounding_mode hD mode)
    all_goals exact State.gives_onlyF (State.rounding_mode hD mode)
  case toInt | toUInt => exact State.gives_onlyFlagsX (State.rounding_mode hF mode)
  all_goals exact State.gives_onlyF_boxed hF (State.rounding_mode hF mode)

/-- Settles O33: the class mask and the low half go to an x register, the boxed word to an f register. -/
theorem fpMovesAndClasses : Obligations.FpMovesAndClasses := by
  intro s rd rs1 hF
  simp only [← State.readS_eq_unboxed hF]
  refine ⟨s.gives_onlyX (State.whenAdmitted_true hF) ?classS, ⟨EncodeRow.fmvSX .., ?fmvSX⟩,
    ⟨EncodeRow.fmvXS .., s.gives_onlyX (State.whenAdmitted_true hF) ?fmvXS⟩,
    fun extD => s.gives_onlyX (State.whenAdmitted_true (hasD_eq_extD hF ▸ extD)) ?classD⟩
  case classS | classD => exact (BitVec.ofNat_toNat ..).symm
  case fmvXS => exact (BitVec.ofNat_toNat ..).symm
  case fmvSX =>
    rw [← boxS_eq _ _ hF]
    exact State.gives_of (State.whenAdmitted_true hF) (.next (s.onlyFMove_writeS rd _))

/-! ### Sign injection (R262 to R267) -/

/-- A new sign bit on top of the lower bits. -/
theorem getLsbD_signed {w n : Nat} (sign : BitVec 1) (a : BitVec w) {k : Nat} :
    (sign ++ a.extractLsb' 0 n).getLsbD k = if k < n then a.getLsbD k else sign.getLsbD (k - n) := by
  rw [BitVec.getLsbD_append]
  split
  case isTrue low => rw [BitVec.getLsbD_extractLsb', decide_eq_true low, Bool.true_and, Nat.zero_add]
  case isFalse => rfl

section
variable {s : State} {i : Instr} {rd rs1 rs2 : RegIdx} {new : Bool}

theorem State.gives_signInjectS (hF : s.params.extF = true) {sign : Word → Word → BitVec 1}
    (e : exec i s = s.signInjectS i rd rs1 rs2 sign) (h : (sign (s.unboxed rs1) (s.unboxed rs2)).getLsbD 0 = new) :
    s.gives i fun t => ∃ v : DWord, s.onlyFMove t rd v ∧ (s.params.extD = true → v.extractLsb' 32 32 = 0xFFFFFFFF#32) ∧
      (∀ k < 31, v.getLsbD k = (s.unboxed rs1).getLsbD k) ∧ v.getLsbD 31 = new := by
  have moved := s.onlyFMove_writeS rd (injectS (sign (s.readS rs1) (s.readS rs2)) (s.readS rs1))
  rw [boxS_eq_boxed hF] at moved
  refine State.gives_of (e.trans (State.whenAdmitted_true hF)) (.next ⟨_, moved, fun hD => upperHalf_boxed hD _, ?_⟩)
  rw [State.readS_eq_unboxed hF, State.readS_eq_unboxed hF, injectS]
  refine ⟨fun k hk => ?_, ?_⟩
  · rw [getLsbD_boxed _ _ (by omega), getLsbD_signed, if_pos hk]
  · rw [getLsbD_boxed _ _ (by decide), getLsbD_signed, if_neg (by decide), h]

theorem State.gives_signInjectD (hD : hasD s.params = true) {sign : DWord → DWord → BitVec 1}
    (e : exec i s = s.signInjectD i rd rs1 rs2 sign) (h : (sign (s.readD rs1) (s.readD rs2)).getLsbD 0 = new) :
    s.gives i fun t => ∃ v : DWord, s.onlyFMove t rd v ∧
      (∀ k < 63, v.getLsbD k = (s.readD rs1).getLsbD k) ∧ v.getLsbD 63 = new := by
  refine State.gives_of (e.trans (State.whenAdmitted_true hD)) (.next ⟨_, s.onlyFMove_writeD rd _, fun k hk => ?_, ?_⟩)
  · rw [injectD, getLsbD_signed, if_pos hk]
  · rw [injectD, getLsbD_signed, if_neg (by decide), h]

end

/-- The sign bit as a one-bit field. -/
theorem getLsbD_signS (a : Word) : (signS a).getLsbD 0 = a.getLsbD 31 := by simp [signS]
theorem getLsbD_signD (a : DWord) : (signD a).getLsbD 0 = a.getLsbD 63 := by simp [signD]

/-- Settles O31: the meanings differ in their sign bit alone. -/
theorem fpSignInjection : Obligations.FpSignInjection := by
  intro s rd rs1 rs2 hF
  refine ⟨⟨EncodeRow.fsgnjS .., State.gives_signInjectS (sign := fun _ b => signS b) hF rfl ?plainS⟩,
    ⟨EncodeRow.fsgnjnS .., State.gives_signInjectS (sign := fun _ b => ~~~signS b) hF rfl ?complementS⟩,
    ⟨EncodeRow.fsgnjxS .., State.gives_signInjectS (sign := fun a b => signS a ^^^ signS b) hF rfl ?xorS⟩,
    fun extD => ?double⟩
  case plainS => exact getLsbD_signS _
  case complementS => rw [BitVec.getLsbD_not, getLsbD_signS]; rfl
  case xorS => rw [BitVec.getLsbD_xor, getLsbD_signS, getLsbD_signS]
  case double =>
    have hD : hasD s.params = true := hasD_eq_extD hF ▸ extD
    refine ⟨⟨EncodeRow.fsgnjD .., State.gives_signInjectD (sign := fun _ b => signD b) hD rfl ?plainD⟩,
      ⟨EncodeRow.fsgnjnD .., State.gives_signInjectD (sign := fun _ b => ~~~signD b) hD rfl ?complementD⟩,
      ⟨EncodeRow.fsgnjxD .., State.gives_signInjectD (sign := fun a b => signD a ^^^ signD b) hD rfl ?xorD⟩⟩
    case plainD => exact getLsbD_signD _
    case complementD => rw [BitVec.getLsbD_not, getLsbD_signD]; rfl
    case xorD => rw [BitVec.getLsbD_xor, getLsbD_signD, getLsbD_signD]

/-! ### Loads and stores (R240 to R243) -/

/-- The bytes that fsd stores are those of its two words, the low one first. -/
theorem bytes64_eq_littleEndian (v : DWord) :
    bytes64 v = littleEndian (BitVec.ofNat 32 v.toNat) ++ littleEndian (BitVec.ofNat 32 (v.toNat / 2 ^ 32)) := by
  have low : v.extractLsb' 0 32 = BitVec.ofNat 32 v.toNat := by rw [BitVec.extractLsb', Nat.shiftRight_zero]
  have high : v.extractLsb' 32 32 = BitVec.ofNat 32 (v.toNat / 2 ^ 32) := by
    rw [BitVec.extractLsb', Nat.shiftRight_eq_div_pow]
  rw [bytes64, bytes32_eq, bytes32_eq, low, high]

/-- Settles O28: past admission, each meaning is a load or a store of the integer kind. -/
theorem fpLoadsAndStores : Obligations.FpLoadsAndStores := by
  intro s rd rs1 rs2 imm hF
  refine ⟨⟨EncodeRow.flw .., State.loadsFrom_of (State.whenAdmitted_true hF) ?flw⟩,
    ⟨EncodeRow.fsw .., State.storesTo_bytes (State.whenAdmitted_true hF) ?fsw (by simp [littleEndian])⟩,
    fun extD => ?double⟩
  case flw =>
    rw [← s.read32_eq, ← boxS_eq _ _ hF]
    exact .next (s.onlyFMove_writeS rd _)
  case fsw => rw [bytes32_eq, State.readLow, BitVec.ofNat_toNat]
  case double =>
    have hD : hasD s.params = true := hasD_eq_extD hF ▸ extD
    refine ⟨⟨EncodeRow.fld .., State.loadsFrom_of (State.whenAdmitted_true hD) ?fld⟩,
      ⟨EncodeRow.fsd .., State.storesTo_bytes (State.whenAdmitted_true hD) (bytes64_eq_littleEndian _)
        (by simp [littleEndian])⟩⟩
    rw [← s.read32_eq, ← s.read32_eq]
    exact .next (s.onlyFMove_writeD rd _)

/-! ### Rounding modes (R313) -/

/-- Every meaning with an rm field asks for its mode; the rows that need XLEN = 64 are illegal before that. -/
theorem exec_rmReserved {i : Instr} {s : State} {rm : BitVec 3} (field : i.rmField = some rm)
    (reserved : s.rmReserved rm) : exec i s = s.illegal i := by
  cases i with
  | faddS | faddD | fsubS | fsubD | fmulS | fmulD | fdivS | fdivD | fsqrtS | fsqrtD | fmaddS | fmaddD | fmsubS | fmsubD
  | fnmsubS | fnmsubD | fnmaddS | fnmaddD | fcvtDS | fcvtSD | fcvtSW | fcvtDW | fcvtSWu | fcvtDWu | fcvtWS | fcvtWD
  | fcvtWuS | fcvtWuD =>
    cases field
    exact State.rounding_reserved reserved
  | fcvtSL | fcvtDL | fcvtSLu | fcvtDLu | fcvtLS | fcvtLD | fcvtLuS | fcvtLuD => rfl
  | _ => cases field

/-- Settles O35: the effective mode is a function of `rm` and `frm`, undefined exactly on the reserved values. -/
theorem reservedRoundingModes : Obligations.ReservedRoundingModes := by
  refine ⟨fun i s rm field reserved => ?traps, fun s rm => ?exhaustive, fun s rm m n hm hn => ?unique⟩
  case traps => exact State.gives_of (exec_rmReserved field reserved) (s.illegal_answers i)
  case exhaustive =>
    simp only [← s.effectiveMode_none, ← s.effectiveMode_eq, Option.eq_none_iff_forall_ne_some, not_exists]
  case unique => exact Option.some.inj (((s.effectiveMode_eq rm m).mpr hm).symm.trans ((s.effectiveMode_eq rm n).mpr hn))

/-! ### Accrued flags (R314) -/

/-- What an instruction does to the control and status registers: nothing, flags added, or a CSR instruction's access. -/
theorem State.Effect.csr_cases {i : Instr} {s t : State} (e : s.Effect i t) :
    s.keepsCsrs t ∨ (∃ fl, t.fflags = s.fflags ||| fl ∧ t.frm = s.frm ∧ t.csrs = s.csrs) ∨ i.isCsr = true := by
  cases e with
  | fpRegFlags rd v fl =>
    exact .inr (.inl ⟨fl, (s.writeD rd v).fflags_accrue fl, (s.writeD rd v).frm_accrue fl, rfl⟩)
  | intRegFlags rd v fl =>
    have fflags : (s.writeX rd v).fflags = s.fflags := by simp [State.fflags]
    have frm : (s.writeX rd v).frm = s.frm := by simp [State.frm]
    exact .inr (.inl ⟨fl, fflags ▸ (s.writeX rd v).fflags_accrue fl, frm ▸ (s.writeX rd v).frm_accrue fl, by simp⟩)
  | csrWritten _ _ _ _ _ _ hi | csrRead _ _ _ _ hi => exact .inr (.inr hi)
  | _ => exact .inl (by simp [State.keepsCsrs])

/-- Settles O36, by what each effect does to the control and status registers. -/
theorem flagsOnlyAccrue : Obligations.FlagsOnlyAccrue := by
  intro i s t notCsr ran
  obtain ⟨fcsr, csrs⟩ | ⟨fl, fflags, frm, csrs⟩ | csr := (exec_next_effect ran).csr_cases
  · have fflags : t.fflags = s.fflags := by rw [State.fflags, fcsr, State.fflags]
    exact ⟨fun k set => by rw [fflags, set], by rw [State.frm, fcsr, State.frm], csrs⟩
  · exact ⟨fun k set => by rw [fflags, BitVec.getLsbD_or, set, Bool.true_or], frm, csrs⟩
  · exact absurd csr (by rw [notCsr]; decide)

end Sys2Proof.Machine

/-! The statements of 45_fd_float.md about the intended FP_NUMERICS: each is proved once for every format with enough bits, and
used at single and at double. -/

namespace Sys2Proof.Machine

/-! ### Formats in their bits (R310) -/

/-- The patterns of the format are the words of `w` bits, and neither field is too short to round with. -/
structure FpFormat.Fits (f : FpFormat) (w : Nat) : Prop where
  width : w = 1 + f.expBits + f.fracBits
  expBits : 2 ≤ f.expBits
  fracBits : 1 ≤ f.fracBits

theorem fpSingle_fits : fpSingle.Fits 32 := ⟨rfl, by decide, by decide⟩
theorem fpDouble_fits : fpDouble.Fits 64 := ⟨rfl, by decide, by decide⟩

/-- A finite operand is its sign bit, a significand and an exponent, which give its number (R311). -/
theorem FpFormat.Fits.unpack_finite {f : FpFormat} {w : Nat} (fits : f.Fits w) {a : BitVec w}
    (finite : isFinite f.expBits f.fracBits a.toNat) : ∃ m e, f.unpack a.toNat = .finite a.msb m e ∧
      number f.expBits f.fracBits a.toNat = signedValue a.msb m e := by
  rw [← f.sign_msb fits.width a]
  exact f.unpack_number a.toNat finite

section
variable {eb fb w : Nat} {rm : RoundingMode} {r : Nat × FpFlags}

/-- A result that fits in `w` bits is not cut by them. -/
theorem toNat_asBits (h : r.1 < 2 ^ w) : (asBits w r).1.toNat = r.1 :=
  (BitVec.toNat_ofNat _ _).trans (Nat.mod_eq_of_lt h)

theorem roundsOnce.asBits {neg : Bool} {k : Nat} {y : ℚ} (h : roundsOnce eb fb rm neg k y r.1 r.2)
    (hw : w = 1 + eb + fb) : roundsOnce eb fb rm neg k y (asBits w r).1.toNat (asBits w r).2 := by
  rw [toNat_asBits (hw ▸ roundsOnce_lt h)]
  exact h

theorem roundsNumber.asBits {x : ℚ} {zeroNeg : Bool} (h : roundsNumber eb fb rm x zeroNeg r.1 r.2)
    (hw : w = 1 + eb + fb) : roundsNumber eb fb rm x zeroNeg (asBits w r).1.toNat (asBits w r).2 := by
  rw [toNat_asBits (hw ▸ roundsNumber_lt h)]
  exact h

end

/-! ### Exact results of finite operands (R244 to R261) -/

theorem signedValue_not (neg : Bool) (m : Nat) (e : Int) : signedValue (!neg) m e = -signedValue neg m e := by
  cases neg <;> simp [signedValue]

theorem signedValue_mul (n1 : Bool) (m1 : Nat) (e1 : Int) (n2 : Bool) (m2 : Nat) (e2 : Int) :
    signedValue n1 m1 e1 * signedValue n2 m2 e2 = signedValue (n1 != n2) (m1 * m2) (e1 + e2) := by
  have powers : (2 : ℚ) ^ (e1 + e2) = 2 ^ e1 * 2 ^ e2 := zpow_add₀ two_ne_zero e1 e2
  cases n1 <;> cases n2 <;> simp [signedValue, powers] <;> ring

/-- A number above zero has no sign and a significand. -/
theorem signedValue_pos_iff (neg : Bool) (m : Nat) (e : Int) : 0 < signedValue neg m e ↔ neg = false ∧ m ≠ 0 := by
  have power : (0 : ℚ) < 2 ^ e := by positivity
  cases neg <;> simp [signedValue, power, Nat.pos_iff_ne_zero]

/-- A number below zero has a sign and a significand. -/
theorem signedValue_neg_iff (neg : Bool) (m : Nat) (e : Int) : signedValue neg m e < 0 ↔ neg = true ∧ m ≠ 0 := by
  have := signedValue_pos_iff (!neg) m e
  rwa [signedValue_not, neg_pos, Bool.not_eq_false'] at this

section
variable {f : FpFormat} {w : Nat} (fits : f.Fits w) (rm : RoundingMode)
include fits

/-- A magnitude is rounded once, or is the zero with its sign. -/
theorem FpFormat.Fits.zeroOrRound_number (neg : Bool) (m : Nat) (e : Int) {r : Nat × FpFlags}
    (hr : r = if m = 0 then (f.zero neg, noFlags) else f.round rm neg m e) :
    roundsNumber f.expBits f.fracBits rm (signedValue neg m e) neg r.1 r.2 := by
  by_cases zero : m = 0
  · rw [if_pos zero] at hr
    have value := (signedValue_eq_zero neg m e).mpr zero
    exact ⟨fun nonzero => absurd value nonzero, fun _ => hr ▸ ⟨f.zero_eq neg, rfl⟩⟩
  · rw [if_neg zero] at hr
    exact hr ▸ f.round_number fits.expBits fits.fracBits rm neg neg m zero e

/-- Division by a number other than 0. -/
theorem FpFormat.Fits.divValues_number (n1 : Bool) (m1 : Nat) (e1 : Int) (n2 : Bool) (m2 : Nat) (e2 : Int) (h2 : m2 ≠ 0) :
    roundsNumber f.expBits f.fracBits rm (signedValue n1 m1 e1 / signedValue n2 m2 e2) (n1 != n2)
      (f.divValues rm (.finite n1 m1 e1) (.finite n2 m2 e2)).1 (f.divValues rm (.finite n1 m1 e1) (.finite n2 m2 e2)).2 := by
  have divided : f.divValues rm (.finite n1 m1 e1) (.finite n2 m2 e2) =
      if m1 = 0 then (f.zero (n1 != n2), noFlags) else f.divFinite rm (n1 != n2) m1 e1 m2 e2 := if_neg h2
  rw [divided]
  by_cases zero : m1 = 0
  · rw [if_pos zero, (signedValue_eq_zero n1 m1 e1).mpr zero, zero_div]
    exact ⟨fun nonzero => absurd rfl nonzero, fun _ => ⟨f.zero_eq _, rfl⟩⟩
  · rw [if_neg zero]
    exact f.divFinite_number fits.expBits fits.fracBits rm n1 m1 e1 n2 m2 e2 zero h2 _

/-- R244 to R261, R313: each operation on finite operands is its exact result, rounded once. -/
theorem FpFormat.Fits.arithmeticOf : ArithmeticOf f.expBits f.fracBits w (f.ops w) where
  add rm a b ha hb := by
    obtain ⟨m1, e1, ua, na⟩ := fits.unpack_finite ha
    obtain ⟨m2, e2, ub, nb⟩ := fits.unpack_finite hb
    refine roundsNumber.asBits ?_ fits.width
    rw [ua, ub, na, nb]
    exact f.addFinite_number fits.expBits fits.fracBits rm a.msb m1 e1 b.msb m2 e2
  sub rm a b ha hb := by
    obtain ⟨m1, e1, ua, na⟩ := fits.unpack_finite ha
    obtain ⟨m2, e2, ub, nb⟩ := fits.unpack_finite hb
    refine roundsNumber.asBits ?_ fits.width
    rw [ua, ub, na, nb, sub_eq_add_neg, ← signedValue_not]
    exact f.addFinite_number fits.expBits fits.fracBits rm a.msb m1 e1 (!b.msb) m2 e2
  mul rm a b ha hb := by
    obtain ⟨m1, e1, ua, na⟩ := fits.unpack_finite ha
    obtain ⟨m2, e2, ub, nb⟩ := fits.unpack_finite hb
    refine roundsNumber.asBits ?_ fits.width
    rw [ua, ub, na, nb, signedValue_mul]
    exact fits.zeroOrRound_number rm (a.msb != b.msb) (m1 * m2) (e1 + e2) rfl
  div rm a b ha hb nonzero := by
    obtain ⟨m1, e1, ua, na⟩ := fits.unpack_finite ha
    obtain ⟨m2, e2, ub, nb⟩ := fits.unpack_finite hb
    rw [nb, ne_eq, signedValue_eq_zero] at nonzero
    refine roundsNumber.asBits ?_ fits.width
    rw [ua, ub, na, nb]
    exact fits.divValues_number rm a.msb m1 e1 b.msb m2 e2 nonzero
  sqrt rm a ha positive := by
    obtain ⟨m, e, ua, na⟩ := fits.unpack_finite ha
    obtain ⟨plus, nonzero⟩ := (signedValue_pos_iff _ _ _).mp (na ▸ positive)
    have root : f.sqrtValue rm (.finite a.msb m e) = f.sqrtFinite rm m e := by
      simp [FpFormat.sqrtValue, plus, nonzero]
    refine roundsOnce.asBits ?_ fits.width
    rw [ua, na, root, plus]
    exact f.sqrtFinite_spec fits.expBits fits.fracBits rm m nonzero e
  fma rm a b c ha hb hc := by
    obtain ⟨m1, e1, ua, na⟩ := fits.unpack_finite ha
    obtain ⟨m2, e2, ub, nb⟩ := fits.unpack_finite hb
    obtain ⟨m3, e3, uc, nc⟩ := fits.unpack_finite hc
    refine roundsNumber.asBits ?_ fits.width
    have sameSign (x y d : Bool) : (if x = y then y else d) = if x = y then x else d :=
      ite_congr rfl Eq.symm fun _ => rfl
    rw [ua, ub, uc, na, nb, nc, signedValue_mul, sameSign]
    exact f.addFinite_number fits.expBits fits.fracBits rm (a.msb != b.msb) (m1 * m2) (e1 + e2) c.msb m3 e3

end

/-- Settles O58: one theorem about every format, at single and at double. -/
theorem intendedArithmeticRoundsOnce : Obligations.IntendedArithmeticRoundsOnce :=
  ⟨fun p intended => by rw [numericsOf, intended], fpSingle_fits.arithmeticOf, fpDouble_fits.arithmeticOf⟩

/-! ### The operations of a format (R316) -/

section
variable (f : FpFormat) (w : Nat) (rm : RoundingMode) (a b c : BitVec w)

theorem FpFormat.ops_add : (f.ops w).add rm a b = asBits w (f.addValues rm (f.unpack a.toNat) (f.unpack b.toNat)) := rfl
theorem FpFormat.ops_sub :
    (f.ops w).sub rm a b = asBits w (f.addValues rm (f.unpack a.toNat) (f.unpack b.toNat).negate) := rfl
theorem FpFormat.ops_mul : (f.ops w).mul rm a b = asBits w (f.mulValues rm (f.unpack a.toNat) (f.unpack b.toNat)) := rfl
theorem FpFormat.ops_div : (f.ops w).div rm a b = asBits w (f.divValues rm (f.unpack a.toNat) (f.unpack b.toNat)) := rfl
theorem FpFormat.ops_sqrt : (f.ops w).sqrt rm a = asBits w (f.sqrtValue rm (f.unpack a.toNat)) := rfl
theorem FpFormat.ops_fma : (f.ops w).fma rm a b c =
    asBits w (f.fmaValues rm (f.unpack a.toNat) (f.unpack b.toNat) (f.unpack c.toNat)) := rfl

end

/-! ### Infinities, zeros and invalid operations (R244, R248, R250, R252, R315) -/

/-- The patterns of the canonical NaN, the infinities and the zeros of a format in `w` bits. -/
structure FpFormat.Specials (f : FpFormat) (w : Nat) (nan : BitVec w) (inf zero : Bool → BitVec w) : Prop where
  nanBits : BitVec.ofNat w f.canonicalNan = nan
  infBits : ∀ p, BitVec.ofNat w (f.infinity p) = inf p
  zeroBits : ∀ p, BitVec.ofNat w (f.zero p) = zero p
  unpackInf : ∀ p, f.unpack (inf p).toNat = .inf p
  unpackZero : ∀ p, f.unpack (zero p).toNat = .finite p 0 f.qmin
  msbInf : ∀ p, (inf p).msb = p

theorem fpSingle_specials : fpSingle.Specials 32 0x7FC00000#32 (fun neg => if neg then 0xFF800000#32 else 0x7F800000#32)
    (fun neg => if neg then 0x80000000#32 else 0#32) where
  nanBits := canonicalNan_single
  infBits := by decide
  zeroBits := by decide
  unpackInf := by decide
  unpackZero := by decide
  msbInf := by decide

theorem fpDouble_specials : fpDouble.Specials 64 0x7FF8000000000000#64
    (fun neg => if neg then 0xFFF0000000000000#64 else 0x7FF0000000000000#64)
    (fun neg => if neg then 0x8000000000000000#64 else 0#64) where
  nanBits := canonicalNan_double
  infBits := by decide
  zeroBits := by decide
  unpackInf := by decide
  unpackZero := by decide
  msbInf := by decide

/-- A value that with an infinity as the other factor makes an infinity: it is a NaN no more than a zero. -/
structure FpValue.ScalesInf (v : FpValue) (neg : Bool) : Prop where
  notNan : v.isNan = false
  left : ∀ p, FpValue.zeroTimesInf (.inf p) v = false ∧ FpValue.product (.inf p) v = .inf (p != neg)
  right : ∀ p, v.zeroTimesInf (.inf p) = false ∧ v.product (.inf p) = .inf (neg != p)

theorem FpValue.scalesInf_inf (neg : Bool) : FpValue.ScalesInf (.inf neg) neg :=
  ⟨rfl, fun _ => ⟨rfl, rfl⟩, fun _ => ⟨rfl, rfl⟩⟩

theorem FpValue.scalesInf_finite (neg : Bool) {m : Nat} (e : Int) (nonzero : m ≠ 0) :
    FpValue.ScalesInf (.finite neg m e) neg :=
  ⟨rfl, fun _ => ⟨beq_false_of_ne nonzero, rfl⟩, fun _ => ⟨beq_false_of_ne nonzero, rfl⟩⟩

/-- Where no operand is a NaN and no zero meets an infinity, the fused form is the product and the sum. -/
theorem FpFormat.fmaValues_product (f : FpFormat) (rm : RoundingMode) {a b c : FpValue} (hz : a.zeroTimesInf b = false)
    (ha : a.isNan = false) (hb : b.isNan = false) (hc : c.isNan = false) :
    f.fmaValues rm a b c = f.addValues rm (a.product b) c := by
  simp [FpFormat.fmaValues, hz, ha, hb, hc]

/-- Two infinities have a sum when they have one sign (R244). -/
theorem FpFormat.addValues_inf_inf (f : FpFormat) (rm : RoundingMode) (p q : Bool) :
    f.addValues rm (.inf p) (.inf q) = if p = q then (f.infinity p, noFlags) else f.invalid := rfl

/-- An infinite product with an addend that is finite. -/
theorem FpFormat.fmaValues_inf_finite (f : FpFormat) (rm : RoundingMode) {v : FpValue} {neg : Bool} (h : v.ScalesInf neg)
    (p n : Bool) (m : Nat) (e : Int) :
    f.fmaValues rm (.inf p) v (.finite n m e) = (f.infinity (p != neg), noFlags) ∧
    f.fmaValues rm v (.inf p) (.finite n m e) = (f.infinity (neg != p), noFlags) := by
  obtain ⟨lz, lp⟩ := h.left p
  obtain ⟨rz, rp⟩ := h.right p
  rw [f.fmaValues_product rm lz rfl h.notNan rfl, f.fmaValues_product rm rz h.notNan rfl rfl, lp, rp]
  exact ⟨rfl, rfl⟩

/-- An infinite product with an addend that is an infinity. -/
theorem FpFormat.fmaValues_inf_inf (f : FpFormat) (rm : RoundingMode) {v : FpValue} {neg : Bool} (h : v.ScalesInf neg)
    (p q : Bool) :
    f.fmaValues rm (.inf p) v (.inf q) = (if (p != neg) = q then (f.infinity q, noFlags) else f.invalid) ∧
    f.fmaValues rm v (.inf p) (.inf q) = (if (neg != p) = q then (f.infinity q, noFlags) else f.invalid) := by
  obtain ⟨lz, lp⟩ := h.left p
  obtain ⟨rz, rp⟩ := h.right p
  have sum (x : Bool) : f.addValues rm (.inf x) (.inf q) = if x = q then (f.infinity q, noFlags) else f.invalid :=
    (f.addValues_inf_inf rm x q).trans <| ite_congr rfl (fun same => by rw [same]) fun _ => rfl
  rw [f.fmaValues_product rm lz rfl h.notNan rfl, f.fmaValues_product rm rz h.notNan rfl rfl, lp, rp]
  exact ⟨sum _, sum _⟩

section
variable {f : FpFormat} {w : Nat} {nan : BitVec w} {inf zero : Bool → BitVec w}

namespace FpFormat.Specials
variable (sp : f.Specials w nan inf zero)
include sp

theorem asBits_invalid : asBits w f.invalid = (nan, 0b10000#5) := Prod.ext sp.nanBits rfl
theorem asBits_infinity (p : Bool) : asBits w (f.infinity p, noFlags) = (inf p, 0#5) := Prod.ext (sp.infBits p) rfl
theorem asBits_divZero (p : Bool) : asBits w (f.infinity p, flagDZ) = (inf p, 0b01000#5) := Prod.ext (sp.infBits p) rfl
theorem asBits_zero (p : Bool) : asBits w (f.zero p, noFlags) = (zero p, 0#5) := Prod.ext (sp.zeroBits p) rfl

/-- An operand other than a NaN and a zero, as the claims say it. -/
theorem scalesInf (fits : f.Fits w) {a : BitVec w}
    (h : isFinite f.expBits f.fracBits a.toNat ∧ number f.expBits f.fracBits a.toNat ≠ 0 ∨ a = inf false ∨ a = inf true) :
    (f.unpack a.toNat).ScalesInf a.msb := by
  obtain ⟨finite, nonzero⟩ | rfl | rfl := h
  · obtain ⟨m, e, unpacked, value⟩ := fits.unpack_finite finite
    rw [value, ne_eq, signedValue_eq_zero] at nonzero
    rw [unpacked]
    exact FpValue.scalesInf_finite a.msb e nonzero
  · rw [sp.unpackInf, sp.msbInf]
    exact FpValue.scalesInf_inf false
  · rw [sp.unpackInf, sp.msbInf]
    exact FpValue.scalesInf_inf true

/-- Each of the special cases of R244, R248, R250, R252 and section 4, by what the operands unpack to. -/
theorem specialsOf (fits : f.Fits w) : SpecialsOf f.expBits f.fracBits w (f.ops w) nan inf zero where
  addInfinities rm p q := by
    rw [f.ops_add, sp.unpackInf, sp.unpackInf, f.addValues_inf_inf, apply_ite (asBits w), sp.asBits_infinity,
      sp.asBits_invalid]
  addInfinity rm p a finite := by
    obtain ⟨m, e, ua, _⟩ := fits.unpack_finite finite
    rw [f.ops_add, f.ops_add, sp.unpackInf, ua]
    exact ⟨sp.asBits_infinity p, sp.asBits_infinity p⟩
  subInfinities rm p q := by
    rw [f.ops_sub, sp.unpackInf, sp.unpackInf, FpValue.negate, f.addValues_inf_inf, apply_ite (asBits w),
      sp.asBits_infinity, sp.asBits_invalid]
    simp only [Bool.eq_not, ite_not, ne_eq]
  subInfinity rm p a finite := by
    obtain ⟨m, e, ua, _⟩ := fits.unpack_finite finite
    rw [f.ops_sub, f.ops_sub, sp.unpackInf, ua]
    exact ⟨sp.asBits_infinity p, sp.asBits_infinity !p⟩
  mulInfinities rm p q := by
    rw [f.ops_mul, sp.unpackInf, sp.unpackInf]
    exact sp.asBits_infinity _
  mulInfinity rm p a finite := by
    obtain ⟨m, e, ua, na⟩ := fits.unpack_finite finite
    have left : f.mulValues rm (.inf p) (.finite a.msb m e) =
        if m = 0 then f.invalid else (f.infinity (p != a.msb), noFlags) := rfl
    have right : f.mulValues rm (.finite a.msb m e) (.inf p) =
        if m = 0 then f.invalid else (f.infinity (a.msb != p), noFlags) := rfl
    rw [f.ops_mul, f.ops_mul, sp.unpackInf, ua, left, right, apply_ite (asBits w), apply_ite (asBits w),
      sp.asBits_infinity, sp.asBits_infinity, sp.asBits_invalid, na]
    simp only [signedValue_eq_zero, and_self]
  divInfinities rm p q := by
    rw [f.ops_div, sp.unpackInf, sp.unpackInf]
    exact sp.asBits_invalid
  divInfinity rm p a finite := by
    obtain ⟨m, e, ua, _⟩ := fits.unpack_finite finite
    rw [f.ops_div, f.ops_div, sp.unpackInf, ua]
    exact ⟨sp.asBits_infinity _, sp.asBits_zero _⟩
  divZero rm a b ha hb zero := by
    obtain ⟨m1, e1, ua, na⟩ := fits.unpack_finite ha
    obtain ⟨m2, e2, ub, nb⟩ := fits.unpack_finite hb
    have quotient : f.divValues rm (.finite a.msb m1 e1) (.finite b.msb m2 e2) =
        if m1 = 0 then f.invalid else (f.infinity (a.msb != b.msb), flagDZ) :=
      if_pos ((signedValue_eq_zero _ _ _).mp (nb ▸ zero))
    rw [f.ops_div, ua, ub, quotient, apply_ite (asBits w), sp.asBits_invalid, sp.asBits_divZero, na]
    simp only [signedValue_eq_zero]
  sqrtInfinity rm p := by
    have root : f.sqrtValue rm (.inf p) = if p then f.invalid else (f.infinity false, noFlags) := rfl
    rw [f.ops_sqrt, sp.unpackInf, root]
    cases p
    · exact sp.asBits_infinity false
    · exact sp.asBits_invalid
  sqrtZero rm p := by
    rw [f.ops_sqrt, sp.unpackZero]
    exact sp.asBits_zero p
  sqrtNegative rm a finite negative := by
    obtain ⟨m, e, ua, na⟩ := fits.unpack_finite finite
    obtain ⟨minus, nonzero⟩ := (signedValue_neg_iff _ _ _).mp (na ▸ negative)
    have root : f.sqrtValue rm (.finite a.msb m e) = f.invalid := by simp [FpFormat.sqrtValue, minus, nonzero]
    rw [f.ops_sqrt, ua, root, sp.asBits_invalid]
  fmaZeroTimesInfinity rm p a c finite zero := by
    obtain ⟨m, e, ua, na⟩ := fits.unpack_finite finite
    obtain rfl : m = 0 := (signedValue_eq_zero _ _ _).mp (na ▸ zero)
    rw [f.ops_fma, f.ops_fma, sp.unpackInf, ua]
    exact ⟨sp.asBits_invalid, sp.asBits_invalid⟩
  fmaInfinity rm p a c scales finite := by
    obtain ⟨m, e, uc, _⟩ := fits.unpack_finite finite
    obtain ⟨left, right⟩ := f.fmaValues_inf_finite rm (sp.scalesInf fits scales) p c.msb m e
    rw [f.ops_fma, f.ops_fma, sp.unpackInf, uc, left, right]
    exact ⟨sp.asBits_infinity _, sp.asBits_infinity _⟩
  fmaInfinities rm p q a scales := by
    obtain ⟨left, right⟩ := f.fmaValues_inf_inf rm (sp.scalesInf fits scales) p q
    rw [f.ops_fma, f.ops_fma, sp.unpackInf, sp.unpackInf, left, right, apply_ite (asBits w), apply_ite (asBits w),
      sp.asBits_infinity, sp.asBits_invalid]
    exact ⟨rfl, rfl⟩
  fmaAddend rm q a b ha hb := by
    obtain ⟨m1, e1, ua, _⟩ := fits.unpack_finite ha
    obtain ⟨m2, e2, ub, _⟩ := fits.unpack_finite hb
    rw [f.ops_fma, sp.unpackInf, ua, ub]
    exact sp.asBits_infinity q

end FpFormat.Specials
end

/-- Settles O59: one theorem about every format with its special patterns, at single and at double. -/
theorem intendedArithmeticOnSpecials : Obligations.IntendedArithmeticOnSpecials :=
  ⟨fpSingle_specials.specialsOf fpSingle_fits, fpDouble_specials.specialsOf fpDouble_fits⟩

/-! ### A sign and the bits below it (R310) -/

section
variable {f : FpFormat} {w : Nat}

/-- The pattern with the sign `neg` and the exponent and fraction fields `k`. -/
def FpFormat.signed (f : FpFormat) (neg : Bool) (k : Nat) : Nat := (if neg then 2 ^ (f.expBits + f.fracBits) else 0) + k

theorem infinityOf_lt (eb fb : Nat) : infinityOf eb fb false < 2 ^ (eb + fb) := by
  have exponents := Nat.two_pow_pos eb
  rw [infinityOf, if_neg Bool.false_ne_true, Nat.zero_add, pow_add]
  exact Nat.mul_lt_mul_of_pos_right (by omega) (Nat.two_pow_pos fb)

theorem FpFormat.Fits.infinityOf_pos (fits : f.Fits w) : 0 < infinityOf f.expBits f.fracBits false := by
  have exponents : 2 ^ 2 ≤ 2 ^ f.expBits := Nat.pow_le_pow_right (by decide) fits.expBits
  rw [infinityOf, if_neg Bool.false_ne_true, Nat.zero_add]
  exact Nat.mul_pos (by omega) (Nat.two_pow_pos _)

section
variable (neg : Bool) {k : Nat} (hk : k < 2 ^ (f.expBits + f.fracBits))
include hk

theorem FpFormat.signed_mod : f.signed neg k % 2 ^ (f.expBits + f.fracBits) = k := by
  cases neg <;> simp [FpFormat.signed, Nat.mod_eq_of_lt hk]

theorem FpFormat.sign_signed : f.sign (f.signed neg k) = neg := by
  have quotient : f.signed neg k / 2 ^ (f.expBits + f.fracBits) = neg.toNat := by
    rw [FpFormat.signed, Nat.div_eq_iff (Nat.two_pow_pos _)]
    cases neg <;> simp <;> omega
  rw [FpFormat.sign, Nat.add_comm f.fracBits, quotient]
  cases neg <;> rfl

theorem FpFormat.Fits.signed_lt (fits : f.Fits w) : f.signed neg k < 2 ^ w := by
  rw [fits.width, Nat.add_assoc, pow_add, FpFormat.signed]
  cases neg <;> simp <;> omega

theorem FpFormat.number_eq_signed : number f.expBits f.fracBits (f.signed neg k) =
    if neg then -magnitude f.expBits f.fracBits k else magnitude f.expBits f.fracBits k :=
  number_signed _ _ neg k hk

end

/-! ### Exact results (R284, R287, R321) -/

/-- The result is a finite number of the format with the sign `neg`, equal to `x`, and no flag is raised. -/
structure FpFormat.Exact (f : FpFormat) (neg : Bool) (x : ℚ) (r : Nat × FpFlags) : Prop where
  pattern : ∃ k < infinityOf f.expBits f.fracBits false, r.1 = f.signed neg k
  value : number f.expBits f.fracBits r.1 = x
  flags : r.2 = 0#5

theorem FpFormat.Fits.exact_zero (fits : f.Fits w) (neg : Bool) : f.Exact neg 0 (f.zero neg, noFlags) where
  pattern := ⟨0, fits.infinityOf_pos, f.zero_eq neg⟩
  value := by
    have magnitude_zero : magnitude f.expBits f.fracBits 0 = 0 := by simp [magnitude]
    rw [f.zero_eq]
    exact (f.number_eq_signed neg (Nat.two_pow_pos _)).trans (by rw [magnitude_zero, neg_zero, ite_self])
  flags := rfl

/-- A magnitude with few enough bits, of the size of the normal numbers, is not changed by rounding. -/
theorem FpFormat.Fits.exact_round (fits : f.Fits w) (rm : RoundingMode) (neg : Bool) {m : Nat} (hm : m ≠ 0) (e : Int)
    (short : m.log2 ≤ f.fracBits) (lo : f.emin ≤ e + m.log2) (hi : e + m.log2 ≤ f.emax) :
    f.Exact neg (signedValue neg m e) (f.round rm neg m e) := by
  obtain ⟨k, finite, same⟩ := f.exists_pattern fits.expBits m hm e short lo hi
  have rounded := f.round_spec fits.expBits fits.fracBits rm neg m hm e 1 le_rfl _ (agreesOnHalves_exact f m e)
  obtain ⟨pattern, flags⟩ := f.roundsOnce_exact fits.expBits rounded finite same
  refine ⟨⟨k, finite, pattern⟩, ?_, flags⟩
  rw [pattern]
  exact (f.number_eq_signed neg (finite.trans (infinityOf_lt _ _))).trans (by rw [same, signedValue])

/-- What an exact result is in `w` bits. -/
theorem FpFormat.Exact.asBits {neg : Bool} {x : ℚ} {r : Nat × FpFlags} (h : f.Exact neg x r) (fits : f.Fits w) :
    number f.expBits f.fracBits (asBits w r).1.toNat = x ∧ (asBits w r).1.msb = neg ∧
      isFinite f.expBits f.fracBits (asBits w r).1.toNat ∧ (asBits w r).2 = 0#5 := by
  obtain ⟨⟨k, finite, pattern⟩, value, flags⟩ := h
  have below := finite.trans (infinityOf_lt f.expBits f.fracBits)
  have fitted : (Machine.asBits w r).1.toNat = r.1 := toNat_asBits (pattern ▸ fits.signed_lt neg below)
  rw [← f.sign_msb fits.width, isFinite, fitted]
  refine ⟨value, ?_, ?_, flags⟩
  · rw [pattern, f.sign_signed neg below]
  · rw [pattern, f.signed_mod neg below]
    exact finite

end

/-! ### Conversions between the precisions (R284, R285) -/

/-- A single significand and its exponent (R310, R311). -/
theorem unpack_single_bounds {n : Nat} {neg : Bool} {m : Nat} {e : Int} (h : fpSingle.unpack n = .finite neg m e) :
    m < 2 ^ 24 ∧ -149 ≤ e ∧ e ≤ 104 := by
  rw [unpack_single] at h
  split at h
  · split at h <;> cases h
  · split at h <;> cases h <;> omega

/-- A magnitude of at most 53 bits in the range of the normal doubles is not changed by rounding. -/
theorem fpDouble_exact_round (rm : RoundingMode) (neg : Bool) {m : Nat} {e : Int} (hm : m ≠ 0) (short : m < 2 ^ 53)
    (lo : -1022 ≤ e) (hi : e ≤ 971) : fpDouble.Exact neg (signedValue neg m e) (fpDouble.round rm neg m e) := by
  have log : m.log2 ≤ 52 := Nat.lt_succ_iff.mp ((Nat.log2_lt hm).mpr short)
  have emin : fpDouble.emin = -1022 := rfl
  have emax : fpDouble.emax = 1023 := rfl
  exact fpDouble_fits.exact_round rm neg hm e log (by omega) (by omega)

/-- Every finite single is a double. -/
theorem widen_exact (rm : RoundingMode) {a : Word} (finite : isFinite 8 23 a.toNat) :
    fpDouble.Exact a.msb (number 8 23 a.toNat) (fpDouble.convert rm (fpSingle.unpack a.toNat)) := by
  obtain ⟨m, e, unpacked, value⟩ := fpSingle_fits.unpack_finite finite
  obtain ⟨short, lo, hi⟩ := unpack_single_bounds unpacked
  have converted : fpDouble.convert rm (.finite a.msb m e) =
      if m = 0 then (fpDouble.zero a.msb, noFlags) else fpDouble.round rm a.msb m e := rfl
  rw [show number 8 23 a.toNat = signedValue a.msb m e from value, unpacked, converted]
  by_cases zero : m = 0
  · rw [if_pos zero, (signedValue_eq_zero _ _ _).mpr zero]
    exact fpDouble_fits.exact_zero a.msb
  · rw [if_neg zero]
    exact fpDouble_exact_round rm a.msb zero (by omega) (by omega) (by omega)

/-- A finite number to another format: rounded once, a zero with its sign. -/
theorem FpFormat.Fits.convert_number {f g : FpFormat} {w v : Nat} (fits : f.Fits w) (gFits : g.Fits v) (rm : RoundingMode)
    {a : BitVec v} (finite : isFinite g.expBits g.fracBits a.toNat) :
    roundsNumber f.expBits f.fracBits rm (number g.expBits g.fracBits a.toNat) a.msb
      (asBits w (f.convert rm (g.unpack a.toNat))).1.toNat (asBits w (f.convert rm (g.unpack a.toNat))).2 := by
  obtain ⟨m, e, unpacked, value⟩ := gFits.unpack_finite finite
  refine roundsNumber.asBits ?_ fits.width
  rw [unpacked, value]
  exact fits.zeroOrRound_number rm a.msb m e rfl

/-! ### Conversions from integers (R286, R287, R321) -/

theorem FpFormat.Fits.fromInt_number {f : FpFormat} {w : Nat} (fits : f.Fits w) (rm : RoundingMode) (z : Int) :
    roundsNumber f.expBits f.fracBits rm z false (asBits w (f.fromInt rm z)).1.toNat (asBits w (f.fromInt rm z)).2 := by
  have rounded := f.roundInt_number fits.expBits fits.fracBits rm z 0 false
  rw [zpow_zero, mul_one] at rounded
  exact rounded.asBits fits.width

/-- The sign and the magnitude of an integer. -/
theorem signedValue_natAbs (z : Int) : signedValue (decide (z < 0)) z.natAbs 0 = z := by
  rw [signedValue_eq, zpow_zero, mul_one]
  congr 1
  rw [signedMag]
  simp only [decide_eq_true_eq]
  split <;> omega

/-- An integer of at most 53 bits is a double. -/
theorem fromInt_double_exact (rm : RoundingMode) {z : Int} (short : z.natAbs < 2 ^ 53) :
    fpDouble.Exact (decide (z < 0)) z (fpDouble.fromInt rm z) := by
  by_cases zero : z = 0
  · subst zero
    exact fpDouble_fits.exact_zero false
  · have rounded : fpDouble.fromInt rm z = fpDouble.round rm (decide (z < 0)) z.natAbs 0 := if_neg zero
    have unchanged := fpDouble_exact_round rm (decide (z < 0)) (Int.natAbs_ne_zero.mpr zero) short (e := 0) (by decide)
      (by decide)
    rwa [signedValue_natAbs, ← rounded] at unchanged

/-- Both readings of a word are short. -/
theorem natAbs_toInt_lt (v : Word) : v.toInt.natAbs < 2 ^ 53 := by
  have lower := BitVec.le_toInt v
  have upper := BitVec.toInt_lt (x := v)
  omega

theorem natAbs_toNat_lt (v : Word) : (v.toNat : Int).natAbs < 2 ^ 53 := by
  have := v.isLt
  omega

/-! ### Conversions to integers (R320) -/

theorem FpFormat.Fits.toInteger_number {f : FpFormat} {w : Nat} (fits : f.Fits w) (rm : RoundingMode) {lo hi : Int}
    (range : lo ≤ hi) {a : BitVec w} (finite : isFinite f.expBits f.fracBits a.toNat) :
    convertsToInteger lo hi rm (number f.expBits f.fracBits a.toNat) (asWord ((f.unpack a.toNat).toInteger rm lo hi)) := by
  obtain ⟨m, e, unpacked, value⟩ := fits.unpack_finite finite
  rw [unpacked, value]
  exact FpValue.toInteger_spec rm lo hi range a.msb m e

/-- Settles O60: the infinities are single patterns, which the model evaluates; every finite operand is a rounded or an exact
number. -/
theorem intendedConversionsRoundOnce : Obligations.IntendedConversionsRoundOnce := by
  refine ⟨fun rm a finite => fpSingle_fits.convert_number fpDouble_fits rm finite,
    fun rm a finite => (widen_exact rm finite).asBits fpDouble_fits, fun rm => ?_, fun rm v => ⟨?_, ?_, ?_, ?_⟩,
    fun rm a finite => ⟨fpSingle_fits.toInteger_number rm (by decide) finite,
      fpSingle_fits.toInteger_number rm (by decide) finite⟩,
    fun rm a finite => ⟨fpDouble_fits.toInteger_number rm (by decide) finite,
      fpDouble_fits.toInteger_number rm (by decide) finite⟩⟩
  · exact ⟨rfl, rfl, rfl, rfl⟩
  · exact fpSingle_fits.fromInt_number rm v.toInt
  · exact fpSingle_fits.fromInt_number rm v.toNat
  · exact ((fromInt_double_exact rm (natAbs_toInt_lt v)).asBits fpDouble_fits).1
  · exact ((fromInt_double_exact rm (natAbs_toNat_lt v)).asBits fpDouble_fits).1

/-! ### Integers to double and back (R320, R321) -/

/-- An integer is rounded to itself. -/
theorem integerOf_intCast (rm : RoundingMode) (z : Int) : integerOf rm (z : ℚ) = z := by
  have below : ⌈(z : ℚ) - 1 / 2⌉ = z := by rw [Int.ceil_eq_iff]; constructor <;> linarith
  have above : ⌊(z : ℚ) + 1 / 2⌋ = z := by rw [Int.floor_eq_iff]; constructor <;> linarith
  cases rm with
  | nearestEven => simp [integerOf]
  | towardZero => simp [integerOf]
  | down => simp [integerOf]
  | up => simp [integerOf]
  | nearestAway => rw [integerOf, below, above, ite_self]

/-- A number that is an integer of the range converts to it without a flag. -/
theorem convertsToInteger.exact {lo hi : Int} {rm : RoundingMode} {z : Int} {r : Word × FpFlags}
    (h : convertsToInteger lo hi rm z r) (hlo : lo ≤ z) (hhi : z ≤ hi) : r = (BitVec.ofInt 32 z, 0#5) := by
  obtain ⟨_, _, inRange⟩ := h
  rw [integerOf_intCast] at inRange
  exact (inRange hlo hhi).1 rfl

/-- An integer that is a double converts back to itself. -/
theorem toInteger_fromInt_double (rm rm' : RoundingMode) {lo hi z : Int} (short : z.natAbs < 2 ^ 53) (hlo : lo ≤ z)
    (hhi : z ≤ hi) : (asBits 64 (fpDouble.fromInt rm z)).2 = 0#5 ∧
      asWord ((fpDouble.unpack (asBits 64 (fpDouble.fromInt rm z)).1.toNat).toInteger rm' lo hi) =
        (BitVec.ofInt 32 z, 0#5) := by
  obtain ⟨value, _, finite, flags⟩ := (fromInt_double_exact rm short).asBits fpDouble_fits
  have back := fpDouble_fits.toInteger_number rm' (hlo.trans hhi) finite
  rw [value] at back
  exact ⟨flags, back.exact hlo hhi⟩

/-- Settles O41: the double is exact, and an exact integer in range converts back without a flag. -/
theorem integersConvertToDoubleAndBack : Obligations.IntegersConvertToDoubleAndBack := by
  intro rm rm' v
  have lower := BitVec.le_toInt v
  have upper := BitVec.toInt_lt (x := v)
  have bound := v.isLt
  obtain ⟨flags, back⟩ := toInteger_fromInt_double rm rm' (lo := -2 ^ 31) (hi := 2 ^ 31 - 1) (natAbs_toInt_lt v)
    (by omega) (by omega)
  obtain ⟨flagsU, backU⟩ := toInteger_fromInt_double rm rm' (lo := 0) (hi := 2 ^ 32 - 1) (natAbs_toNat_lt v)
    (by omega) (by omega)
  rw [BitVec.ofInt_toInt] at back
  rw [BitVec.ofInt_natCast, BitVec.ofNat_toNat, BitVec.setWidth_eq] at backU
  exact ⟨flags, back, flagsU, backU⟩

/-! ### NaN operands (R315, R317, R320) -/

/-- `isNan` and `isSignaling` are the NaNs and the signaling NaNs of the format in `w` bits. -/
structure FpFormat.Nans (f : FpFormat) (w : Nat) (isNan isSignaling : BitVec w → Prop) : Prop where
  unpackNan : ∀ a : BitVec w, (f.unpack a.toNat).isNan = true ↔ isNan a
  unpackSignaling : ∀ a : BitVec w, (f.unpack a.toNat).isSignaling = true ↔ isSignaling a
  pattern : ∀ a : BitVec w, isNan a ↔ infinityOf f.expBits f.fracBits false < a.toNat % 2 ^ (f.fracBits + f.expBits)

theorem fpSingle_nans : fpSingle.Nans 32 nanS signalingS := ⟨isNan_single, isSignaling_single, fun _ => Iff.rfl⟩
theorem fpDouble_nans : fpDouble.Nans 64 nanD signalingD := ⟨isNan_double, isSignaling_double, fun _ => Iff.rfl⟩

theorem FpValue.eq_nan {v : FpValue} (h : v.isNan = true) : v = .nan v.isSignaling := by
  cases v with
  | nan s => rfl
  | inf n => cases h
  | finite n m e => cases h

theorem FpValue.eq_nan_of_isSignaling {v : FpValue} (h : v.isSignaling = true) : v = .nan true := by
  cases v with
  | nan s => exact congrArg FpValue.nan h
  | inf n => cases h
  | finite n m e => cases h

section
variable {f : FpFormat} {w : Nat} {nan : BitVec w} {inf zero : Bool → BitVec w} {isNan isSignaling : BitVec w → Prop}
variable (nans : f.Nans w isNan isSignaling) (sp : f.Specials w nan inf zero)

include sp in
/-- The canonical NaN, with NV when an operand is signaling. -/
theorem FpFormat.Specials.nanOf {vs : List FpValue} {r : Nat × FpFlags} {P : Prop} (hr : r = f.nanOf vs)
    (h : vs.any FpValue.isSignaling = true ↔ P) :
    (asBits w r).1 = nan ∧ ((asBits w r).2.getLsbD 4 = true ↔ P) := by
  subst hr
  exact ⟨sp.nanBits, by rw [← h]; exact Bool.eq_iff_iff.mp (flagNV_bit _)⟩

include nans

theorem FpFormat.Nans.any_pair (a b : BitVec w) :
    [f.unpack a.toNat, f.unpack b.toNat].any FpValue.isSignaling = true ↔ isSignaling a ∨ isSignaling b := by
  simp [nans.unpackSignaling]

theorem FpFormat.Nans.any_one (a : BitVec w) : [f.unpack a.toNat].any FpValue.isSignaling = true ↔ isSignaling a := by
  simp [nans.unpackSignaling]

include sp

/-- With a NaN operand, add, sub, mul and div give the canonical NaN. -/
theorem FpFormat.Nans.binary (rm : RoundingMode) (a b : BitVec w) (h : isNan a ∨ isNan b) :
    ((f.ops w).add rm a b).1 = nan ∧ (((f.ops w).add rm a b).2.getLsbD 4 = true ↔ isSignaling a ∨ isSignaling b) ∧
    ((f.ops w).sub rm a b).1 = nan ∧ (((f.ops w).sub rm a b).2.getLsbD 4 = true ↔ isSignaling a ∨ isSignaling b) ∧
    ((f.ops w).mul rm a b).1 = nan ∧ (((f.ops w).mul rm a b).2.getLsbD 4 = true ↔ isSignaling a ∨ isSignaling b) ∧
    ((f.ops w).div rm a b).1 = nan ∧ (((f.ops w).div rm a b).2.getLsbD 4 = true ↔ isSignaling a ∨ isSignaling b) := by
  have one : ((f.unpack a.toNat).isNan || (f.unpack b.toNat).isNan) = true := by
    rwa [Bool.or_eq_true, nans.unpackNan, nans.unpackNan]
  have negated : ((f.unpack a.toNat).isNan || (f.unpack b.toNat).negate.isNan) = true := by
    rwa [FpValue.isNan_negate]
  have any := nans.any_pair a b
  have anyNegated : [f.unpack a.toNat, (f.unpack b.toNat).negate].any FpValue.isSignaling = true ↔
      isSignaling a ∨ isSignaling b := by
    simpa [FpValue.isSignaling_negate] using any
  obtain ⟨add, addNV⟩ := sp.nanOf (f.addValues_nan rm _ _ one) any
  obtain ⟨sub, subNV⟩ := sp.nanOf (f.addValues_nan rm _ _ negated) anyNegated
  obtain ⟨mul, mulNV⟩ := sp.nanOf (f.mulValues_nan rm _ _ one) any
  obtain ⟨div, divNV⟩ := sp.nanOf (f.divValues_nan rm _ _ one) any
  exact ⟨add, addNV, sub, subNV, mul, mulNV, div, divNV⟩

theorem FpFormat.Nans.sqrt (rm : RoundingMode) (a : BitVec w) (h : isNan a) :
    ((f.ops w).sqrt rm a).1 = nan ∧ (((f.ops w).sqrt rm a).2.getLsbD 4 = true ↔ isSignaling a) :=
  sp.nanOf (f.sqrtValue_nan rm _ ((nans.unpackNan a).mpr h)) (nans.any_one a)

/-- The fused form raises NV for zero times infinity too. -/
theorem FpFormat.Nans.fma (rm : RoundingMode) (a b c : BitVec w) (h : isNan a ∨ isNan b ∨ isNan c) :
    ((f.ops w).fma rm a b c).1 = nan ∧
      (isSignaling a ∨ isSignaling b ∨ isSignaling c → ((f.ops w).fma rm a b c).2.getLsbD 4 = true) := by
  have one : ((f.unpack a.toNat).isNan || (f.unpack b.toNat).isNan || (f.unpack c.toNat).isNan) = true := by
    rwa [Bool.or_eq_true, Bool.or_eq_true, nans.unpackNan, nans.unpackNan, nans.unpackNan, or_assoc]
  rw [f.ops_fma]
  obtain invalid | quiet := f.fmaValues_nan rm _ _ _ one
  · rw [invalid, sp.asBits_invalid]
    exact ⟨rfl, fun _ => (by decide : (0b10000#5).getLsbD 4 = true)⟩
  · obtain ⟨result, raised⟩ := sp.nanOf (P := isSignaling a ∨ isSignaling b ∨ isSignaling c) quiet
      (by simp [nans.unpackSignaling])
    exact ⟨result, raised.mpr⟩

theorem FpFormat.Nans.minMax (wantMax : Bool) {a b : BitVec w} (ha : isNan a) (hb : isNan b) :
    (asBits w (f.minMax wantMax a.toNat b.toNat)).1 = nan := by
  have chosen : f.minMax wantMax a.toNat b.toNat =
      f.nanOf [f.unpack a.toNat, f.unpack b.toNat] := by
    simp [FpFormat.minMax, FpFormat.nanOf, (nans.unpackNan a).mpr ha, (nans.unpackNan b).mpr hb]
  rw [chosen]
  exact sp.nanBits

omit nans in
theorem FpFormat.Specials.convert {g : FpFormat} {v : Nat} {isNan isSignaling : BitVec v → Prop}
    (gnans : g.Nans v isNan isSignaling) (rm : RoundingMode) (a : BitVec v) (h : isNan a) :
    (asBits w (f.convert rm (g.unpack a.toNat))).1 = nan ∧
      ((asBits w (f.convert rm (g.unpack a.toNat))).2.getLsbD 4 = true ↔ isSignaling a) :=
  sp.nanOf (f.convert_nan rm _ ((gnans.unpackNan a).mpr h)) (gnans.any_one a)

end

/-- Settles O37: an operation with a NaN operand answers `nanOf`, and its NV is that of a signaling operand. -/
theorem nanOperandsGiveTheCanonicalNan : Obligations.NanOperandsGiveTheCanonicalNan :=
  ⟨fpSingle_nans.binary fpSingle_specials, fpSingle_nans.sqrt fpSingle_specials, fpSingle_nans.fma fpSingle_specials,
    fun _ _ ha hb => ⟨fpSingle_nans.minMax fpSingle_specials false ha hb,
      fpSingle_nans.minMax fpSingle_specials true ha hb⟩,
    fpDouble_nans.binary fpDouble_specials, fpDouble_nans.sqrt fpDouble_specials, fpDouble_nans.fma fpDouble_specials,
    fun _ _ ha hb => ⟨fpDouble_nans.minMax fpDouble_specials false ha hb,
      fpDouble_nans.minMax fpDouble_specials true ha hb⟩,
    fpDouble_specials.convert fpSingle_nans, fpSingle_specials.convert fpDouble_nans⟩

/-- A NaN converts to the upper end of the range (R320). -/
theorem FpFormat.Nans.toInteger {f : FpFormat} {w : Nat} {isNan isSignaling : BitVec w → Prop}
    (nans : f.Nans w isNan isSignaling) (rm : RoundingMode) (lo hi : Int) {a : BitVec w} (h : isNan a) :
    (f.unpack a.toNat).toInteger rm lo hi = (hi, flagNV true) := by
  rw [FpValue.eq_nan ((nans.unpackNan a).mpr h)]
  rfl

/-- Settles O40: the infinities are single patterns, which the model evaluates. -/
theorem conversionsToIntegerSaturate : Obligations.ConversionsToIntegerSaturate :=
  ⟨fun rm _ h => ⟨congrArg asWord (fpSingle_nans.toInteger rm _ _ h),
      congrArg asWord (fpSingle_nans.toInteger rm _ _ h)⟩,
    fun _ => ⟨rfl, rfl, rfl, rfl⟩,
    fun rm _ h => ⟨congrArg asWord (fpDouble_nans.toInteger rm _ _ h),
      congrArg asWord (fpDouble_nans.toInteger rm _ _ h)⟩,
    fun _ => ⟨rfl, rfl, rfl, rfl⟩⟩

/-! ### The class of a pattern (R319) -/

section
variable {f : FpFormat} {w : Nat}

theorem FpFormat.signed_lt_signed_iff (f : FpFormat) (neg : Bool) (j k : Nat) : f.signed neg j < f.signed neg k ↔ j < k :=
  Nat.add_lt_add_iff_left

/-- A pattern from that of a sign up has that sign on top of its other bits. -/
theorem FpFormat.exists_signed {neg : Bool} {lo n : Nat} (h : f.signed neg lo ≤ n) : ∃ k, n = f.signed neg k ∧ lo ≤ k := by
  obtain ⟨d, rfl⟩ := Nat.exists_eq_add_of_le h
  exact ⟨lo + d, Nat.add_assoc .., Nat.le_add_right ..⟩

/-- The fields of a pattern with its sign taken off. -/
theorem FpFormat.fields_signed (neg : Bool) {k : Nat} (hk : k < 2 ^ (f.expBits + f.fracBits)) :
    f.fraction (f.signed neg k) = k % 2 ^ f.fracBits ∧ f.exponent (f.signed neg k) = k / 2 ^ f.fracBits := by
  have low : k / 2 ^ f.fracBits < 2 ^ f.expBits :=
    Nat.div_lt_of_lt_mul (by rwa [← pow_add, Nat.add_comm])
  have sign : ∃ c, f.signed neg k = 2 ^ f.fracBits * (2 ^ f.expBits * c) + k := by
    refine ⟨neg.toNat, ?_⟩
    rw [FpFormat.signed, ← mul_assoc, ← pow_add, Nat.add_comm f.fracBits]
    cases neg <;> simp
  obtain ⟨c, hc⟩ := sign
  rw [FpFormat.fraction, FpFormat.exponent, hc]
  refine ⟨Nat.mul_add_mod .., ?_⟩
  rw [Nat.mul_add_div (Nat.two_pow_pos _), Nat.mul_add_mod, Nat.mod_eq_of_lt low]

section
variable (neg : Bool) {k : Nat}

theorem FpFormat.unpack_normal (lo : 2 ^ f.fracBits ≤ k) (hi : k < infinityOf f.expBits f.fracBits false) :
    ∃ m e, f.unpack (f.signed neg k) = .finite neg m e ∧ 2 ^ f.fracBits ≤ m := by
  have below := hi.trans (infinityOf_lt _ _)
  obtain ⟨fraction, exponent⟩ := f.fields_signed neg below
  have positive : 0 < k / 2 ^ f.fracBits := Nat.div_pos lo (Nat.two_pow_pos _)
  have notOnes : k / 2 ^ f.fracBits < 2 ^ f.expBits - 1 :=
    Nat.div_lt_of_lt_mul (by rwa [infinityOf, if_neg Bool.false_ne_true, Nat.zero_add, Nat.mul_comm] at hi)
  simp only [FpFormat.unpack, fraction, exponent, f.sign_signed neg below]
  rw [if_neg notOnes.ne, if_neg positive.ne']
  exact ⟨_, _, rfl, Nat.le_add_right ..⟩

theorem FpFormat.unpack_infinity : f.unpack (f.signed neg (infinityOf f.expBits f.fracBits false)) = .inf neg := by
  have below := infinityOf_lt f.expBits f.fracBits
  obtain ⟨fraction, exponent⟩ := f.fields_signed neg below
  have fields : infinityOf f.expBits f.fracBits false = (2 ^ f.expBits - 1) * 2 ^ f.fracBits := by simp [infinityOf]
  rw [fields, Nat.mul_mod_left] at fraction
  rw [fields, Nat.mul_div_cancel _ (Nat.two_pow_pos _)] at exponent
  rw [fields] at below ⊢
  simp only [FpFormat.unpack, fraction, exponent, f.sign_signed neg below]
  rw [if_pos trivial, if_pos trivial]

variable (fits : f.Fits w)
include fits

theorem FpFormat.Fits.unpack_subnormal (hk : k < 2 ^ f.fracBits) :
    f.unpack (f.signed neg k) = .finite neg k f.qmin := by
  have exponents : 2 ^ 2 ≤ 2 ^ f.expBits := Nat.pow_le_pow_right (by decide) fits.expBits
  have below : k < 2 ^ (f.expBits + f.fracBits) := hk.trans_le (Nat.pow_le_pow_right (by decide) (by omega))
  obtain ⟨fraction, exponent⟩ := f.fields_signed neg below
  rw [Nat.mod_eq_of_lt hk] at fraction
  rw [Nat.div_eq_of_lt hk] at exponent
  simp only [FpFormat.unpack, fraction, exponent, f.sign_signed neg below]
  rw [if_neg (by omega), if_pos trivial]

/-- The classes of the patterns with one sign that are no NaN, from the zero up. -/
theorem FpFormat.Fits.classOf_signed (n : Nat) :
    (n = f.signed neg 0 → f.classOf n = if neg then 8#10 else 16#10) ∧
    (f.signed neg 0 < n ∧ n < f.signed neg (2 ^ f.fracBits) → f.classOf n = if neg then 4#10 else 32#10) ∧
    (f.signed neg (2 ^ f.fracBits) ≤ n ∧ n < f.signed neg (infinityOf f.expBits f.fracBits false) →
      f.classOf n = if neg then 2#10 else 64#10) ∧
    (n = f.signed neg (infinityOf f.expBits f.fracBits false) → f.classOf n = if neg then 1#10 else 128#10) := by
  refine ⟨?zero, ?subnormal, ?normal, ?infinity⟩
  case zero =>
    rintro rfl
    simp only [FpFormat.classOf, fits.unpack_subnormal neg (Nat.two_pow_pos _), if_pos]
    rfl
  case subnormal =>
    rintro ⟨lo, hi⟩
    obtain ⟨k, rfl, _⟩ := f.exists_signed lo.le
    rw [f.signed_lt_signed_iff] at lo hi
    simp only [FpFormat.classOf, fits.unpack_subnormal neg hi]
    rw [if_neg lo.ne', if_pos hi]
    rfl
  case normal =>
    rintro ⟨lo, hi⟩
    obtain ⟨k, rfl, atLeast⟩ := f.exists_signed lo
    obtain ⟨m, e, unpacked, large⟩ := f.unpack_normal neg atLeast ((f.signed_lt_signed_iff neg _ _).mp hi)
    have positive : 0 < m := (Nat.two_pow_pos _).trans_le large
    simp only [FpFormat.classOf, unpacked]
    rw [if_neg positive.ne', if_neg large.not_gt]
    rfl
  case infinity =>
    rintro rfl
    simp only [FpFormat.classOf, f.unpack_infinity neg]
    rfl

end

/-- Each of the ten classes, from minus infinity to the quiet NaNs. -/
theorem FpFormat.Nans.classMask {isNan isSignaling : BitVec w → Prop} (nans : f.Nans w isNan isSignaling) (fits : f.Fits w)
    (a : BitVec w) :
    (a.toNat = f.signed true (infinityOf f.expBits f.fracBits false) → f.classOf a.toNat = 1#10) ∧
    (f.signed true (2 ^ f.fracBits) ≤ a.toNat ∧ a.toNat < f.signed true (infinityOf f.expBits f.fracBits false) →
      f.classOf a.toNat = 2#10) ∧
    (f.signed true 0 < a.toNat ∧ a.toNat < f.signed true (2 ^ f.fracBits) → f.classOf a.toNat = 4#10) ∧
    (a.toNat = f.signed true 0 → f.classOf a.toNat = 8#10) ∧
    (a.toNat = f.signed false 0 → f.classOf a.toNat = 16#10) ∧
    (f.signed false 0 < a.toNat ∧ a.toNat < f.signed false (2 ^ f.fracBits) → f.classOf a.toNat = 32#10) ∧
    (f.signed false (2 ^ f.fracBits) ≤ a.toNat ∧ a.toNat < f.signed false (infinityOf f.expBits f.fracBits false) →
      f.classOf a.toNat = 64#10) ∧
    (a.toNat = f.signed false (infinityOf f.expBits f.fracBits false) → f.classOf a.toNat = 128#10) ∧
    (isSignaling a → f.classOf a.toNat = 256#10) ∧ (isNan a ∧ ¬ isSignaling a → f.classOf a.toNat = 512#10) := by
  obtain ⟨minusZero, minusSubnormal, minusNormal, minusInfinity⟩ := fits.classOf_signed true a.toNat
  obtain ⟨plusZero, plusSubnormal, plusNormal, plusInfinity⟩ := fits.classOf_signed false a.toNat
  refine ⟨minusInfinity, minusNormal, minusSubnormal, minusZero, plusZero, plusSubnormal, plusNormal, plusInfinity,
    fun signaling => ?_, fun ⟨nanA, quiet⟩ => ?_⟩
  · rw [FpFormat.classOf, FpValue.eq_nan_of_isSignaling ((nans.unpackSignaling a).mpr signaling)]
    rfl
  · rw [FpFormat.classOf, FpValue.eq_nan ((nans.unpackNan a).mpr nanA),
      Bool.eq_false_iff.mpr (mt (nans.unpackSignaling a).mp quiet)]
    rfl

end

/-- Settles O38: the bounds of the ranges are the formats' own, as numbers. -/
theorem classMasks : Obligations.ClassMasks :=
  ⟨fpSingle_nans.classMask fpSingle_fits, fpDouble_nans.classMask fpDouble_fits⟩

/-! ### Selection and comparison (R317, R318) -/

/-- A pattern whose number is 0 has no bits below its sign. -/
theorem mod_eq_zero_of_number_eq_zero {eb fb n : Nat} (h : number eb fb n = 0) : n % 2 ^ (fb + eb) = 0 := by
  have zero : magnitude eb fb n = 0 := by
    unfold number at h
    split at h
    · exact neg_eq_zero.mp h
    · exact h
  have fields : n % 2 ^ (fb + eb) = n % 2 ^ fb + 2 ^ fb * (n / 2 ^ fb % 2 ^ eb) := by rw [pow_add, Nat.mod_mul]
  unfold magnitude at zero
  simp only at zero
  split at zero
  case isTrue subnormal =>
    have power : (2 : ℚ) ^ (1 - ((2 : Int) ^ (eb - 1) - 1)) ≠ 0 := by positivity
    have fraction : n % 2 ^ fb = 0 := by
      simpa [power] using zero
    rw [fields, subnormal, fraction, Nat.mul_zero]
  case isFalse normal =>
    exact absurd zero (by positivity)

/-- A flag raised exactly when `P`. -/
theorem flagNV_eq {b : Bool} {P : Prop} (h : b = true ↔ P) : (P → flagNV b = 0b10000#5) ∧ (¬ P → flagNV b = 0#5) := by
  cases b with
  | true => exact ⟨fun _ => rfl, fun n => absurd (h.mp rfl) n⟩
  | false => exact ⟨fun p => (nomatch h.mpr p), fun _ => rfl⟩

/-- Does the first pattern stand before the second, -0 before +0? -/
def FpFormat.before (f : FpFormat) (a b : Nat) : Bool :=
  decide (f.orderKey a < f.orderKey b) || (f.orderKey a == f.orderKey b && f.sign a)

theorem FpFormat.minMax_eq_of_not_nan (f : FpFormat) (wantMax : Bool) {a b : Nat} (ha : (f.unpack a).isNan = false)
    (hb : (f.unpack b).isNan = false) : (f.minMax wantMax a b).1 = if f.before a b != wantMax then a else b := by
  simp only [FpFormat.minMax, ha, hb, Bool.and_false, Bool.false_eq_true, if_false]
  rfl

theorem FpFormat.minMax_flags (f : FpFormat) (wantMax : Bool) (a b : Nat) :
    (f.minMax wantMax a b).2 = flagNV ((f.unpack a).isSignaling || (f.unpack b).isSignaling) := by
  unfold FpFormat.minMax
  simp only
  split_ifs <;> rfl

/-- One NaN operand gives the other one. -/
theorem FpFormat.minMax_one_nan (f : FpFormat) (wantMax : Bool) {a b : Nat} (ha : (f.unpack a).isNan = true)
    (hb : (f.unpack b).isNan = false) : (f.minMax wantMax a b).1 = b ∧ (f.minMax wantMax b a).1 = b := by
  simp [FpFormat.minMax, ha, hb]

/-- Of two patterns of which the first stands before the second, min gives the first and max the second. -/
theorem FpFormat.minMax_before (f : FpFormat) {a b : Nat} (ha : (f.unpack a).isNan = false)
    (hb : (f.unpack b).isNan = false) (ab : f.before a b = true) (ba : f.before b a = false) :
    (f.minMax false a b).1 = a ∧ (f.minMax true a b).1 = b ∧ (f.minMax false b a).1 = a ∧ (f.minMax true b a).1 = b := by
  simp [f.minMax_eq_of_not_nan, ha, hb, ab, ba]

section
variable {f : FpFormat} {w : Nat} {isNan isSignaling : BitVec w → Prop}

theorem asBits_eq {n : Nat} {fl : FpFlags} {a : BitVec w} (h : n = a.toNat) : (asBits w (n, fl)).1 = a := by
  rw [asBits, h, BitVec.ofNat_toNat, BitVec.setWidth_eq]

theorem asBit_eq_one_iff (r : Bool × FpFlags) : (asBit r).1 = 1#1 ↔ r.1 = true := by
  obtain ⟨b, fl⟩ := r
  cases b <;> simp [asBit]

namespace FpFormat.Nans
variable (nans : f.Nans w isNan isSignaling)
include nans

theorem unpack_not_nan {a : BitVec w} (h : ¬ isNan a) : (f.unpack a.toNat).isNan = false :=
  Bool.eq_false_iff.mpr (mt (nans.unpackNan a).mp h)

theorem le_infinity {a : BitVec w} (h : ¬ isNan a) :
    a.toNat % 2 ^ (f.fracBits + f.expBits) ≤ infinityOf f.expBits f.fracBits false :=
  not_lt.mp (mt (nans.pattern a).mpr h)

/-- Two operands that are no NaN are ordered as their numbers are. -/
theorem orderKey_lt_iff (fits : f.Fits w) {a b : BitVec w} (ha : ¬ isNan a) (hb : ¬ isNan b) :
    f.orderKey a.toNat < f.orderKey b.toNat ↔
      number f.expBits f.fracBits a.toNat < number f.expBits f.fracBits b.toNat :=
  f.orderKey_lt fits.expBits _ _ (nans.le_infinity ha) (nans.le_infinity hb)

theorem orderKey_eq_iff (fits : f.Fits w) {a b : BitVec w} (ha : ¬ isNan a) (hb : ¬ isNan b) :
    f.orderKey a.toNat = f.orderKey b.toNat ↔
      number f.expBits f.fracBits a.toNat = number f.expBits f.fracBits b.toNat :=
  f.orderKey_eq fits.expBits _ _ (nans.le_infinity ha) (nans.le_infinity hb)

theorem selected_before {a b : BitVec w} (ha : ¬ isNan a) (hb : ¬ isNan b) (ab : f.before a.toNat b.toNat = true)
    (ba : f.before b.toNat a.toNat = false) :
    ((f.ops w).min a b).1 = a ∧ ((f.ops w).max a b).1 = b ∧ ((f.ops w).min b a).1 = a ∧ ((f.ops w).max b a).1 = b := by
  obtain ⟨minAB, maxAB, minBA, maxBA⟩ := f.minMax_before (nans.unpack_not_nan ha) (nans.unpack_not_nan hb) ab ba
  exact ⟨asBits_eq minAB, asBits_eq maxAB, asBits_eq minBA, asBits_eq maxBA⟩

theorem not_nan_of_zero {a : BitVec w} (zero : number f.expBits f.fracBits a.toNat = 0) : ¬ isNan a := by
  rw [nans.pattern, mod_eq_zero_of_number_eq_zero zero]
  exact Nat.not_lt_zero _

/-- A comparison of two operands is false where one is a NaN (R318). -/
theorem compared {a b : BitVec w} {c : Bool} {P : Prop} (h : ¬ isNan a → ¬ isNan b → (c = true ↔ P)) :
    (!((f.unpack a.toNat).isNan || (f.unpack b.toNat).isNan) && c) = true ↔ ¬ isNan a ∧ ¬ isNan b ∧ P := by
  rw [Bool.and_eq_true, Bool.not_eq_true', Bool.eq_false_iff, ne_eq, Bool.or_eq_true, nans.unpackNan, nans.unpackNan,
    not_or, and_assoc]
  exact and_congr_right fun ha => and_congr_right fun hb => h ha hb

/-- R317, R318, by the order of the keys. -/
theorem selectionOf (fits : f.Fits w) : SelectionOf f.expBits f.fracBits w (f.ops w) isNan isSignaling where
  eq a b := by
    have answer : (f.eqBits a.toNat b.toNat).1 = (!((f.unpack a.toNat).isNan || (f.unpack b.toNat).isNan) &&
        f.orderKey a.toNat == f.orderKey b.toNat) := by rw [Bool.not_or]; rfl
    exact (asBit_eq_one_iff _).trans <| answer ▸ nans.compared fun ha hb =>
      beq_iff_eq.trans (nans.orderKey_eq_iff fits ha hb)
  lt a b := (asBit_eq_one_iff _).trans <| nans.compared fun ha hb =>
    decide_eq_true_iff.trans (nans.orderKey_lt_iff fits ha hb)
  le a b := (asBit_eq_one_iff _).trans <| nans.compared fun ha hb =>
    decide_eq_true_iff.trans <| not_lt.symm.trans <| (nans.orderKey_lt_iff fits hb ha).not.trans not_lt
  eqFlags a b := flagNV_eq (by rw [Bool.or_eq_true, nans.unpackSignaling, nans.unpackSignaling])
  ltFlags a b := flagNV_eq (by rw [Bool.or_eq_true, nans.unpackNan, nans.unpackNan])
  leFlags a b := flagNV_eq (by rw [Bool.or_eq_true, nans.unpackNan, nans.unpackNan])
  oneNan a b ha hb := by
    have first (wantMax : Bool) := f.minMax_one_nan wantMax ((nans.unpackNan a).mpr ha) (nans.unpack_not_nan hb)
    exact ⟨asBits_eq (first false).1, asBits_eq (first true).1, asBits_eq (first false).2, asBits_eq (first true).2⟩
  ordered a b ha hb less := by
    have below := (nans.orderKey_lt_iff fits ha hb).mpr less
    refine nans.selected_before ha hb ?_ ?_
    · simp [FpFormat.before, below]
    · simp [FpFormat.before, below.le, below.ne']
  equal a ha := by
    have same (wantMax : Bool) : (f.minMax wantMax a.toNat a.toNat).1 = a.toNat := by
      rw [f.minMax_eq_of_not_nan wantMax (nans.unpack_not_nan ha) (nans.unpack_not_nan ha), ite_self]
    exact ⟨asBits_eq (same false), asBits_eq (same true)⟩
  zeros a b zeroA zeroB minus plus := by
    have ha := nans.not_nan_of_zero zeroA
    have hb := nans.not_nan_of_zero zeroB
    have same := (nans.orderKey_eq_iff fits ha hb).mpr (zeroA.trans zeroB.symm)
    refine nans.selected_before ha hb ?_ ?_
    · simp [FpFormat.before, same, f.sign_msb fits.width, minus]
    · simp [FpFormat.before, same, f.sign_msb fits.width, plus]
  minFlags a b := by
    rw [show ((f.ops w).min a b).2 = _ from f.minMax_flags false a.toNat b.toNat]
    exact flagNV_eq (by rw [Bool.or_eq_true, nans.unpackSignaling, nans.unpackSignaling])
  maxFlags a b := by
    rw [show ((f.ops w).max a b).2 = _ from f.minMax_flags true a.toNat b.toNat]
    exact flagNV_eq (by rw [Bool.or_eq_true, nans.unpackSignaling, nans.unpackSignaling])

end FpFormat.Nans
end

/-- Settles O39: the operations choose by the order of keys, which is that of the numbers with -0 before +0. -/
theorem minMaxAndComparisons : Obligations.MinMaxAndComparisons :=
  ⟨fpSingle_nans.selectionOf fpSingle_fits, fpDouble_nans.selectionOf fpDouble_fits⟩

end Sys2Proof.Machine

/-! The statements of 46_a_atomic.md: the nine read-modify-writes, lr.w and sc.w, and what becomes of the reservation. -/

namespace Sys2Proof.Machine

open Sys2Proof.Laws

/-! ### An instruction behind its check

lr.w and sc.w ask for alignment, then for permission (46_a_atomic.md R331). -/

section
variable {s : State} {i : Instr} {check : Option Cause} {a : Word} {k : Result}

theorem State.gives_trapped (e : exec i s = s.whenPasses check a k) {c : Cause} (h : check = some c) :
    s.gives i fun t => s.trapped t c a :=
  State.gives_of (e.trans (State.whenPasses_some h)) (s.raise_answers c a)

theorem State.gives_passed (e : exec i s = s.whenPasses check a k) (h : check = none) {post : State → Prop}
    (answers : Answers k post) : s.gives i post :=
  State.gives_of (e.trans (State.whenPasses_none h)) answers

end

/-- An instruction has one next state. -/
theorem State.gives.of_exec {s t : State} {i : Instr} {post : State → Prop} (h : s.gives i post)
    (ran : exec i s = .next t) : post t := by
  obtain ⟨u, runs, holds⟩ := h
  cases runs.symm.trans ran
  exact holds

/-- A trap leaves no reservation (R354). -/
theorem State.trapped.released {s t : State} {e : Cause} {info : Word} (h : s.trapped t e info) :
    t.reservation = none := by
  obtain ⟨_, _, _, _, _, _, reservation, _⟩ := h
  exact reservation

/-- A trap leaves its record (60_exceptions.md R404). -/
theorem State.trapped.recorded {s t : State} {e : Cause} {info : Word} (h : s.trapped t e info) : t.trap ≠ none := by
  obtain ⟨_, _, _, _, _, _, _, _, _, trap⟩ := h
  simp [trap]

/-! ### A result beside a reservation or a store -/

/-- A register result, with the reservation set to `r`. -/
theorem State.finishX_setReservation_answers (s : State) (r : Option Word) (rd : RegIdx) (v : Word) :
    Answers (State.finishX { s with reservation := r } rd v) fun t =>
      s.setsX t rd v ∧ t.pc = s.pc + 4#32 ∧ s.keepsF t ∧ s.keepsCsrs t ∧ s.keepsMem t ∧ t.stale = s.stale ∧
        t.reservation = r ∧ s.keepsModel t := by
  obtain ⟨sets, pc, f, csrs, mem, ⟨stale, reservation⟩, model⟩ :=
    State.onlyX_writeX { s with reservation := r } rd v
  exact .next ⟨sets, pc, f, csrs, mem, stale, reservation, model⟩

/-- A register result after a store. -/
theorem State.finishX_store_answers (s : State) (a : Word) (bs : List Byte) (hl : bs.length ≤ 8) (rd : RegIdx)
    (v : Word) :
    Answers ((s.store a bs).finishX rd v) fun t =>
      s.setsX t rd v ∧ t.pc = s.pc + 4#32 ∧ s.keepsF t ∧ s.keepsCsrs t ∧ s.stores t a bs ∧ s.keepsModel t := by
  refine .next ⟨fun r => ?_, by simp, fun r => by simp, by simp [State.keepsCsrs], ?_, by simp [State.keepsModel]⟩
  · rw [State.readX_advance, State.readX_writeX, State.readX_store]
  · simpa [State.stores] using s.stores_store a bs hl

/-- A store makes no reservation (R354). -/
theorem State.stores.reservation_of_some {s t : State} {a g : Word} {bs : List Byte} (h : s.stores t a bs)
    (reserved : t.reservation = some g) : s.reservation = some g := by
  obtain ⟨_, _, _, reservation⟩ := h
  exact ((reservation g).mp reserved).1

/-- The word that was stored reads back (20_memory.md R52). -/
theorem State.stores.wordAt {s t : State} {a v : Word} (h : s.stores t a (littleEndian v)) : t.wordAt a = v := by
  rw [← bytes32_eq] at h
  obtain ⟨_, written, _⟩ := h
  have held : t.holds a 4 v := fun k hk => Option.some.inj ((written k hk).trans (bytes32_getElem? v k hk))
  simpa [t.read32_eq] using held.read32 0 (by decide)

/-! ### The read-modify-writes (R330 to R348)

The meaning computes the new word by `op`; the claim may have another spelling of it. -/

theorem State.modifies_word {s : State} {i : Instr} {rd rs1 rs2 : RegIdx} {new : Word} (op : Word → Word → Word)
    (hA : s.params.extA = true) (e : exec i s = s.amo i rd rs1 rs2 op)
    (h : op (s.wordAt (s.readX rs1)) (s.readX rs2) = new) : s.modifies i rd (s.readX rs1) new := by
  subst h
  exact State.modifies_of e hA

section
variable {w : Nat} (x y u v : BitVec w)

/-- A choice by the signed order is one by `toInt`. -/
theorem ite_slt_eq : (if x.slt y then u else v) = if x.toInt < y.toInt then u else v :=
  if_congr BitVec.slt_iff_toInt_lt rfl rfl

/-- A choice by the unsigned order is one by `toNat`. -/
theorem ite_ult_eq : (if x.ult y then u else v) = if x.toNat < y.toNat then u else v :=
  if_congr BitVec.ult_iff_toNat_lt rfl rfl

end

/-- Settles O42: each meaning is a read-modify-write with its own operation; the maxima and minima choose by the order. -/
theorem atomicReadModifyWrites : Obligations.AtomicReadModifyWrites := by
  intro s rd rs1 rs2 aq rl hA
  exact ⟨⟨EncodeRow.amoaddW .., State.modifies_word (fun t v => t + v) hA rfl (BitVec.add_def _ _)⟩,
    ⟨EncodeRow.amoswapW .., State.modifies_word (fun _ v => v) hA rfl rfl⟩,
    ⟨EncodeRow.amoandW .., State.modifies_word (fun t v => t &&& v) hA rfl rfl⟩,
    ⟨EncodeRow.amoorW .., State.modifies_word (fun t v => t ||| v) hA rfl rfl⟩,
    ⟨EncodeRow.amoxorW .., State.modifies_word (fun t v => t ^^^ v) hA rfl rfl⟩,
    ⟨EncodeRow.amomaxW .., State.modifies_word (fun t v => if t.slt v then v else t) hA rfl (ite_slt_eq ..)⟩,
    ⟨EncodeRow.amominW .., State.modifies_word (fun t v => if v.slt t then v else t) hA rfl (ite_slt_eq ..)⟩,
    ⟨EncodeRow.amomaxuW .., State.modifies_word (fun t v => if t.ult v then v else t) hA rfl (ite_ult_eq ..)⟩,
    ⟨EncodeRow.amominuW .., State.modifies_word (fun t v => if v.ult t then v else t) hA rfl (ite_ult_eq ..)⟩⟩

/-! ### lr.w and sc.w (R350, R352, R354, R355) -/

/-- Settles O43: past the checks, lr.w is a register result with the reservation of the granule. -/
theorem loadReserved : Obligations.LoadReserved := by
  intro s rd rs1 aq rl hA
  obtain ⟨misaligned, aligned⟩ := s.atomicCheck_cases (s.readX rs1)
  have runs : exec (.lrW rd rs1 aq rl) s = s.whenPasses (s.lrCheck (s.readX rs1)) (s.readX rs1)
      (State.finishX { s with reservation := some (granuleBase s.params (s.readX rs1)) } rd (s.read32 (s.readX rs1))) :=
    State.whenAdmitted_true hA
  rw [s.read32_eq, granuleBase_eq] at runs
  refine ⟨EncodeRow.lrW .., fun off => ?misaligned, fun on absent => ?absent, fun on present => ?reserved⟩
  case misaligned =>
    obtain ⟨check, _, _⟩ := misaligned off
    exact State.gives_trapped runs check
  case absent =>
    obtain ⟨check, _, _⟩ := aligned on
    exact State.gives_trapped runs (check.trans (if_neg absent))
  case reserved =>
    obtain ⟨check, _, _⟩ := aligned on
    exact State.gives_passed runs (check.trans (if_pos present)) (s.finishX_setReservation_answers ..)

/-- Settles O44: past the checks, sc.w with its granule's reservation is a store and a 0, without it a 1 alone; either
starts from the state without a reservation, and no store makes one. -/
theorem storeConditional : Obligations.StoreConditional := by
  intro s rd rs1 rs2 aq rl hA
  obtain ⟨misaligned, aligned⟩ := s.atomicCheck_cases (s.readX rs1)
  have runs : exec (.scW rd rs1 rs2 aq rl) s = s.whenPasses (s.scCheck (s.readX rs1)) (s.readX rs1)
      (if s.reservation = some (granuleBase s.params (s.readX rs1)) then
        State.finishX (State.store { s with reservation := none } (s.readX rs1) (bytes32 (s.readX rs2))) rd 0#32
      else State.finishX { s with reservation := none } rd 1#32) := State.whenAdmitted_true hA
  rw [granuleBase_eq, bytes32_eq] at runs
  refine ⟨EncodeRow.scW .., fun off => ?misaligned, fun on absent => ?absent, fun on present intact => ?stored,
    fun on present lost => ?failed⟩
  case misaligned =>
    obtain ⟨_, check, _⟩ := misaligned off
    exact State.gives_trapped runs check
  case absent =>
    obtain ⟨_, check, _⟩ := aligned on
    exact State.gives_trapped runs (check.trans (if_neg absent))
  case stored =>
    obtain ⟨_, check, _⟩ := aligned on
    rw [if_pos intact] at runs
    obtain ⟨t, ends, sets, pc, f, csrs, stores, model⟩ :=
      State.finishX_store_answers { s with reservation := none } (s.readX rs1) (littleEndian (s.readX rs2))
        (by simp [littleEndian]) rd 0#32
    have released : t.reservation = none :=
      Option.eq_none_iff_forall_ne_some.mpr fun g reserved => by cases stores.reservation_of_some reserved
    exact State.gives_passed runs (check.trans (if_pos present)) ⟨t, ends, sets, pc, f, csrs, released, stores, model⟩
  case failed =>
    obtain ⟨_, check, _⟩ := aligned on
    rw [if_neg lost] at runs
    exact State.gives_passed runs (check.trans (if_pos present)) (s.finishX_setReservation_answers ..)

/-- An lr.w that did not trap was aligned, and leaves the reservation of its granule; the parameters stay (R350). -/
theorem exec_lrW_untrapped {s t : State} {rd rs1 : RegIdx} {aq rl : BitVec 1} (hA : s.params.extA = true)
    (ran : exec (.lrW rd rs1 aq rl) s = .next t) (untrapped : t.trap = none) :
    (s.readX rs1).toNat % 4 = 0 ∧ t.reservation = some (granuleOf s.params (s.readX rs1)) ∧ t.params = s.params := by
  obtain ⟨_, misaligned, absent, reserved⟩ := loadReserved s rd rs1 aq rl hA
  by_cases on : (s.readX rs1).toNat % 4 = 0
  · by_cases present : s.readable (s.readX rs1) 4
    · obtain ⟨_, _, _, _, _, _, reservation, params, _⟩ := (reserved on present).of_exec ran
      exact ⟨on, reservation, params⟩
    · exact absurd untrapped ((absent on present).of_exec ran).recorded
  · exact absurd untrapped ((misaligned on).of_exec ran).recorded

/-- Settles O45: the lr leaves the reservation that sc's success asks for, and the stored word reads back. -/
theorem lrThenScSucceeds : Obligations.LrThenScSucceeds := by
  intro s t rd rs1 rd' rs1' rs2' aq rl aq' rl' hA ran untrapped same writable
  obtain ⟨on, reservation, params⟩ := exec_lrW_untrapped hA ran untrapped
  obtain ⟨_, _, _, succeeds, _⟩ := storeConditional t rd' rs1' rs2' aq' rl' (params ▸ hA)
  rw [← same] at on reservation ⊢
  rw [← params] at reservation
  obtain ⟨u, runs, sets, _, _, _, released, stores, _⟩ := succeeds on writable reservation
  exact ⟨u, runs, stores.wordAt, released, fun notZero => (sets rd').trans (if_pos ⟨rfl, notZero⟩)⟩

/-! ### The reservation (R354, 10_state.md R41) -/

/-- No effect but lr.w's makes a reservation. -/
theorem State.Effect.reservation_cases {i : Instr} {s t : State} (e : s.Effect i t) {g : Word}
    (reserved : t.reservation = some g) :
    s.reservation = some g ∨ ∃ rd rs1 aq rl, i = .lrW rd rs1 aq rl ∧ g = granuleOf s.params (s.readX rs1) := by
  cases e with
  | trap e info => cases reserved
  | store a bs hl => exact .inl ((s.stores_store a bs hl).reservation_of_some reserved)
  | amo a bs rd v hl => exact .inl ((s.stores_store a bs hl).reservation_of_some (by simpa using reserved))
  | reserve rd rs1 aq rl v hi =>
    refine .inr ⟨rd, rs1, aq, rl, hi, ?_⟩
    rw [← granuleBase_eq]
    simpa using reserved.symm
  | condStored rd rs1 rs2 aq rl bs hl =>
    have impossible := (State.stores_store { s with reservation := none } (s.readX rs1) bs hl).reservation_of_some
      (g := g) (by simpa using reserved)
    cases impossible
  | condFailed => simp at reserved
  | _ => exact .inl (by simpa using reserved)

/-- An sc.w leaves no reservation, whichever of its ends it has; where its group is not admitted it traps. -/
theorem exec_scW_released {s t : State} {rd rs1 rs2 : RegIdx} {aq rl : BitVec 1}
    (ran : exec (.scW rd rs1 rs2 aq rl) s = .next t) : t.reservation = none := by
  cases hA : s.params.extA with
  | false => exact ((rowsNotAdmittedAreIllegal (.scW rd rs1 rs2 aq rl) s hA).of_exec ran).released
  | true =>
    obtain ⟨_, misaligned, absent, stored, failed⟩ := storeConditional s rd rs1 rs2 aq rl hA
    by_cases on : (s.readX rs1).toNat % 4 = 0
    case neg => exact ((misaligned on).of_exec ran).released
    by_cases present : s.writable (s.readX rs1) 4
    case neg => exact ((absent on present).of_exec ran).released
    by_cases intact : s.reservation = some (granuleOf s.params (s.readX rs1))
    · obtain ⟨_, _, _, _, released, _⟩ := (stored on present intact).of_exec ran
      exact released
    · obtain ⟨_, _, _, _, _, _, released, _⟩ := (failed on present intact).of_exec ran
      exact released

/-- Settles O56, by what each effect does to the reservation; an effect that leaves a new record is a trap. -/
theorem reservationRules : Obligations.ReservationRules := by
  refine ⟨fun i s t g ran reserved => (exec_next_effect ran).reservation_cases reserved,
    fun s t rd rs1 rs2 aq rl ran => exec_scW_released ran, fun i s t running ran trapped => ?_⟩
  obtain ⟨e, info, rfl⟩ | same := (exec_next_effect ran).trap_cases
  · exact s.takeTrap_reservation e info
  · exact absurd (same.trans running) trapped

end Sys2Proof.Machine

/-! The statements of 60_exceptions.md: a trap is precise and ends the run, nothing but a stale fetch stops a run that goes
on, and what a launch starts with. -/

namespace Sys2Proof.Machine

/-! ### Traps (60_exceptions.md R404, R405, R417) -/

/-- A step that leaves the record of a trap is the taking of that trap and nothing else, whether the fetch or the
instruction took it. -/
theorem step_eq_takeTrap {s t : State} {tr : Trap} (stepped : step s = .next t) (recorded : t.trap = some tr) :
    t = s.takeTrap tr.cause tr.info := by
  have taken : ∀ {e info}, t = s.takeTrap e info → t = s.takeTrap tr.cause tr.info := by
    rintro e info rfl
    cases recorded
    rfl
  obtain ⟨running, ⟨e, info, byFetch⟩ | ⟨i, _, ran⟩⟩ := step_next stepped
  · exact taken byFetch
  · obtain ⟨e, info, byInstr⟩ | same := (exec_next_effect ran).trap_cases
    · exact taken byInstr
    · rw [same, running] at recorded
      cases recorded

/-- Settles O50: the state that `takeTrap` makes is the one before, but for the reservation and the record. -/
theorem trapsArePrecise : Obligations.TrapsArePrecise := by
  intro s t tr _ stepped recorded
  rw [step_eq_takeTrap stepped recorded]
  exact s.trapped_takeTrap _ _

/-- Settles O51: the fetch looks for a recorded trap before all else. -/
theorem trapsEndTheRun : Obligations.TrapsEndTheRun := by
  intro s tr ended
  simp only [step, State.fetch, ended]

/-! ### What stops the machine (R416) -/

/-- Every meaning answers a next state. -/
theorem exec_answers (i : Instr) (s : State) : ∃ t, exec i s = .next t := by
  obtain ⟨t, ran, _⟩ := exec_effect i s
  exact ⟨t, ran⟩

/-- Settles O52: of the four things a fetch can find, only a stale byte gives no next state. -/
theorem nothingElseStops : Obligations.NothingElseStops := by
  refine ⟨exec_answers, fun s running => ?_⟩
  obtain ⟨absent, stale, runs, noRow⟩ := step_fetches s running
  cases present : s.canFetch s.pc 4 with
  | false => exact .inl ⟨_, absent present⟩
  | true =>
    cases isStale : s.staleAt s.pc with
    | true => exact .inr ⟨stale present isStale, s.staleAt_eq.mp isStale⟩
    | false =>
      cases read : decodeWord (s.read32 s.pc) with
      | ok i =>
        obtain ⟨t, ran⟩ := exec_answers i s
        exact .inl ⟨t, (runs present isStale i read).trans ran⟩
      | error e => exact .inl ⟨_, noRow present isStale e read⟩

/-! ### Which launches are refused (R413, R416) -/

/-- One reason is enough, whichever of the others stand. -/
theorem launch_refuses {l : Launch} (h : l.harts ≠ 1 ∨ l.xlen ≠ 32 ∨ l.devices ≠ []) :
    ∃ r, launch l = .refused r := by
  unfold launch
  split_ifs with harts xlen
  · exact ⟨_, rfl⟩
  · exact ⟨_, rfl⟩
  · obtain ⟨d, rest, present⟩ := List.exists_cons_of_ne_nil ((h.resolve_left harts).resolve_left xlen)
    exact ⟨.deviceRegion d.base, by rw [present]⟩

/-- Every other launch has its start state. -/
theorem launch_starts {l : Launch} (harts : l.harts = 1) (xlen : l.xlen = 32) (devices : l.devices = []) :
    launch l = .next l.start := by
  simp only [launch, harts, xlen, devices, ne_eq, not_true_eq_false, if_false]

/-! ### What the start state holds (10_state.md R44, 70_reset_and_hazards.md R442) -/

section StartState

variable (l : Launch)

/-- The x registers of the start state, x0 among them as its slot (R22). -/
theorem Launch.start_x_get (r : RegIdx) :
    l.start.x.get r.toFin = if r = 2#5 then l.stackTop else if r = 0#5 then 0#32 else l.x.get r.toFin := by
  rw [← vector_get_set l.x 0#5 r 0#32, ← vector_get_set _ 2#5 r l.stackTop]
  rfl

theorem Launch.start_readX_stackPointer : l.start.readX 2#5 = l.stackTop := l.start_x_get 2#5

theorem Launch.start_readX_other {r : RegIdx} (notX0 : r ≠ 0#5) (notX2 : r ≠ 2#5) :
    l.start.readX r = l.x.get r.toFin := by
  rw [State.readX, if_neg notX0, Launch.start_x_get, if_neg notX2, if_neg notX0]

/-- A slot keeps its whole value when FLEN is 64, and its lower half alone otherwise (10_state.md R33; log 15). -/
theorem Launch.start_readD (r : RegIdx) : l.start.readD r =
    if hasD l.params then l.f.get r.toFin else 0#32 ++ (l.f.get r.toFin).setWidth 32 := by
  show (launchF l.params l.f).get r.toFin = _
  unfold launchF
  split
  · rfl
  · exact Vector.getElem_map ..

/-- A word under a zero upper half, as a number. -/
theorem zero_append_setWidth (v : DWord) : 0#32 ++ v.setWidth 32 = BitVec.ofNat 64 (v.toNat % 2 ^ 32) := by
  calc 0#32 ++ v.setWidth 32 = (v.setWidth 32).setWidth 64 := (BitVec.setWidth_eq_append (by decide)).symm
    _ = BitVec.ofNat 64 (v.toNat % 2 ^ 32) := by rw [← BitVec.toNat_setWidth, BitVec.ofNat_toNat]

/-- The blocks of a launch, their bytes spelled as in the claims. -/
theorem Launch.blocks_eq : l.blocks = l.image ++ l.program.map fun b => (b.1, b.2.flatMap littleEndian) := by
  simp only [Launch.blocks, funext bytes32_eq]

/-- The canonical form of the start state's memory (20_memory.md R50). -/
theorem Launch.start_mem_wf : Memory.wf l.start.mem := wf_placeImage l.blocks reset_mem_wf

/-- Every part of the invariant but the alignment of `pc` is how every launch starts. -/
theorem Launch.start_inv (onWord : l.resetPc.toNat % 4 = 0) : l.start.Inv where
  zero := l.start_x_get 0#5
  pc := onWord
  fcsr := by simp [State.fcsrKept, Launch.start]
  mem := l.start_mem_wf
  stale := ⟨List.Pairwise.nil, fun _ h => absurd h List.not_mem_nil⟩
  reservation := by intro a h; cases h
  slots := by
    intro noD r
    have narrow : hasD l.params = false := noD
    rw [Launch.start_readD, narrow]
    exact append_high 0#32 _

end StartState

/-! ### A launch that meets the requirements (R442) -/

/-- An instruction word of the program, in the terms of the claims. -/
theorem Launch.hasWord_of_mem_programWords {l : Launch} {p : Word × Word} (h : p ∈ l.programWords) :
    l.hasWord p.1 p.2 := by
  obtain ⟨b, inProgram, inBlock⟩ := List.mem_flatMap.mp h
  obtain ⟨k, hk, at_k, word⟩ := mem_blockWords _ _ _ inBlock
  exact ⟨b, inProgram, k, hk, at_k, word⟩

/-- R442 (2), (3): one of the program's words is at `RESET_PC`, aligned, fetchable and in memory. -/
theorem Launch.word_at_resetPc {l : Launch} (meets : l.meetsRequirements = true) :
    ∃ w, l.hasWord l.resetPc w ∧ l.resetPc.toNat % 4 = 0 ∧ l.start.canFetch l.resetPc 4 = true ∧
      l.start.read32 l.resetPc = w := by
  simp only [Launch.meetsRequirements, Bool.and_eq_true, and_assoc, List.all_eq_true, List.any_eq_true, beq_iff_eq] at meets
  obtain ⟨_, placed, _, ⟨⟨_, w⟩, inProgram, rfl⟩, _⟩ := meets
  have atPc := placed _ inProgram
  simp only [Launch.wordPlaced, Bool.and_eq_true, beq_iff_eq, aligned4_eq] at atPc
  obtain ⟨⟨onWord, fetchable⟩, read⟩ := atPc
  exact ⟨w, Launch.hasWord_of_mem_programWords inProgram, onWord, fetchable, read⟩

/-- Nothing is stale in the start state (R442 (7)), so its first step runs the word that it reads. -/
theorem Launch.step_start {l : Launch} (fetchable : l.start.canFetch l.resetPc 4 = true) {i : Instr}
    (decoded : decodeWord (l.start.read32 l.resetPc) = .ok i) : step l.start = exec i l.start := by
  have fresh : l.start.staleAt l.start.pc = false := by
    refine Bool.eq_false_iff.mpr fun stale => ?_
    obtain ⟨k, _, listed⟩ := l.start.staleAt_eq.mp stale
    cases listed
  obtain ⟨_, _, runs, _⟩ := step_fetches l.start rfl
  exact runs fetchable fresh i decoded

/-- What the requirements buy: the invariant, and a first step that runs the program's word at `RESET_PC`. -/
theorem Launch.start_of_meetsRequirements {l : Launch} (meets : l.meetsRequirements = true) :
    l.start.Inv ∧ ∃ w, l.hasWord l.resetPc w ∧ l.start.wordAt l.start.pc = w ∧
      ∀ i, decodeWord w = .ok i → step l.start = exec i l.start := by
  obtain ⟨w, inProgram, onWord, fetchable, rfl⟩ := Launch.word_at_resetPc meets
  exact ⟨l.start_inv onWord, _, inProgram, (l.start.read32_eq _).symm,
    fun _ decoded => Launch.step_start fetchable decoded⟩

/-- The reset state is the start of the default launch, whose registers are zeros but for `STACK_TOP`. -/
theorem start_defaultLaunch : defaultLaunch.start = State.reset := by
  have slots : launchF defaultParams defaultF = defaultF := Vector.map_replicate ..
  calc defaultLaunch.start = { State.reset with f := launchF defaultParams defaultF } := rfl
    _ = State.reset := by rw [slots]; rfl

/-- Settles O49: the refusals, then field by field what `Launch.start` holds, then the default launch. -/
theorem launchRules : Obligations.LaunchRules := by
  refine ⟨fun l harts => launch_refuses (.inl harts), fun l xlen => launch_refuses (.inr (.inl xlen)),
    fun l devices => launch_refuses (.inr (.inr devices)), fun l harts xlen devices => ?_, ?_⟩
  · refine ⟨l.start, launch_starts harts xlen devices, rfl, State.readX_zero _, l.start_readX_stackPointer,
      fun _ notX0 notX2 => l.start_readX_other notX0 notX2, fun r => ?slots, rfl, rfl, rfl, rfl, rfl, rfl,
      l.start_mem_wf, fun a v placed => ?bytes, Launch.start_of_meetsRequirements⟩
    case slots =>
      simp only [l.start_readD, zero_append_setWidth, hasD, Bool.and_eq_true]
    case bytes =>
      rw [← l.blocks_eq] at placed
      exact placeImage_at placed
  · rw [launch_starts rfl rfl rfl, start_defaultLaunch]

end Sys2Proof.Machine
